-- ==== Sys2Proof/Word.lean ====
section
/-! DEFINITION. The two widths of AESCORE's datapath (00_scope.md R8, R12): a byte of 8 bits and a word of 32 bits, both unsigned (R9). -/

namespace Sys2Proof

/-- "an 8-bit unsigned value, element of GF(2⁸)" (R12). -/
abbrev Byte := BitVec 8

/-- "an ordered sequence of exactly 4 bytes", held as 32 bits with byte 0 in bits 31:24 (R12). -/
abbrev Word := BitVec 32

end Sys2Proof
end

