-- ==== Sys2Proof/Syntax.lean ====
section
/-! DEFINITION. The 19 commands of AESCORE (30_encoding.md R73), one constructor per row of spec/opcode_table.json. The round index i is a number (R72: "an unsigned value 0..15"), a and b are bytes. -/

namespace Sys2Proof

/-- A command with its operands (R71, R72). -/
inductive Instr where
  /-- R200: no operation. -/
  | nop
  /-- R125: expand KEY into KS for CTRL.KSIZE. -/
  | keyexp
  /-- R201: clear STATUS.ERR. -/
  | clrerr
  /-- R146: AddRoundKey with round key i. -/
  | addrk (i : Nat)
  /-- R147: SubBytes. -/
  | subb
  /-- R148: ShiftRows. -/
  | shrow
  /-- R149: MixColumns. -/
  | mixcol
  /-- R150: one full encryption round with round key i. -/
  | encrnd (i : Nat)
  /-- R151: the final encryption round with round key i. -/
  | encfin (i : Nat)
  /-- R152: encrypt the block in ST. -/
  | encblk
  /-- R176: InvSubBytes. -/
  | isubb
  /-- R177: InvShiftRows. -/
  | ishrow
  /-- R178: InvMixColumns. -/
  | imixcol
  /-- R179: one full decryption round with round key i. -/
  | decrnd (i : Nat)
  /-- R180: the final decryption round with round key i. -/
  | decfin (i : Nat)
  /-- R181: decrypt the block in ST. -/
  | decblk
  /-- R107: the GF(2^8) product of a and b. -/
  | gfmul (a b : Byte)
  /-- R108: forward substitution of one byte. -/
  | sbox (a : Byte)
  /-- R109: inverse substitution of one byte. -/
  | isbox (a : Byte)
deriving DecidableEq, Repr

end Sys2Proof
end

