-- ==== Sys2Proof/WellFormed.lean ====
section
/-! DEFINITION. Which terms of Instr are commands: the round index fits the 4-bit RND field (30_encoding.md R70, R72, R77). Bytes are bytes by their type. -/

namespace Sys2Proof

/-- `i` is "an unsigned value 0..15" (R72). -/
def roundIndexOk (i : Nat) : Bool := decide (i < 16)

/-- The operands of the command fit their fields of format C (R70). -/
def Instr.wellFormed : Instr → Bool
  | .addrk i => roundIndexOk i
  | .encrnd i => roundIndexOk i
  | .encfin i => roundIndexOk i
  | .decrnd i => roundIndexOk i
  | .decfin i => roundIndexOk i
  | .nop | .keyexp | .clrerr | .subb | .shrow | .mixcol | .encblk => true
  | .isubb | .ishrow | .imixcol | .decblk => true
  | .gfmul _ _ | .sbox _ | .isbox _ => true

/-- `Instr.wellFormed` as a proposition. -/
abbrev Instr.WellFormed (i : Instr) : Prop := i.wellFormed = true

end Sys2Proof
end

