-- ==== Sys2Proof/Decode.lean ====
section
/-! DEFINITION. The decoder of a command word, total on all 32-bit words and rejecting by name, and the encoder (30_encoding.md R70 to R76). -/

namespace Sys2Proof

/-- The operand forms of R71. -/
inductive Form where
  /-- form `N`: OP only. -/
  | none
  /-- form `R`: OP and RND. -/
  | round
  /-- form `A`: OP and A. -/
  | byte
  /-- form `AB`: OP, A and B. -/
  | bytes
deriving DecidableEq, Repr

/-- Why a word is illegal (R74, R216): "a reserved OP, or a nonzero bit where the opcode's form requires 0". -/
inductive Illegal where
  /-- the OP value is not in R73. Raised by `decode`; the CMD write then records ILLEGAL. -/
  | reservedOp
  /-- a bit that the opcode's form requires to be 0 is 1. Raised by `decode`; the CMD write then records ILLEGAL. -/
  | reservedBits
deriving DecidableEq, Repr

/-- The mask of a form (R74): the bits a row fixes. -/
def Form.mask : Form → Word
  | .none => 0xFFFFFFFF#32
  | .round => 0xFFFFF0FF#32
  | .byte => 0xFF00FFFF#32
  | .bytes => 0x0000FFFF#32

/-- The OP value of a command (R73). -/
def Instr.opcode : Instr → Byte
  | .nop => 0x00#8
  | .keyexp => 0x01#8
  | .clrerr => 0x02#8
  | .addrk _ => 0x10#8
  | .subb => 0x11#8
  | .shrow => 0x12#8
  | .mixcol => 0x13#8
  | .encrnd _ => 0x14#8
  | .encfin _ => 0x15#8
  | .encblk => 0x18#8
  | .isubb => 0x21#8
  | .ishrow => 0x22#8
  | .imixcol => 0x23#8
  | .decrnd _ => 0x24#8
  | .decfin _ => 0x25#8
  | .decblk => 0x28#8
  | .gfmul _ _ => 0x30#8
  | .sbox _ => 0x31#8
  | .isbox _ => 0x32#8

/-- The operand form of a command (R71). -/
def Instr.form : Instr → Form
  | .nop | .keyexp | .clrerr | .subb | .shrow | .mixcol | .encblk => .none
  | .isubb | .ishrow | .imixcol | .decblk => .none
  | .addrk _ | .encrnd _ | .encfin _ | .decrnd _ | .decfin _ => .round
  | .sbox _ | .isbox _ => .byte
  | .gfmul _ _ => .bytes

/-- OP = v[7:0] (R70). -/
def opField (v : Word) : Byte := v.extractLsb' 0 8

/-- i = v[11:8] (R72). -/
def rndField (v : Word) : Nat := (v.extractLsb' 8 4).toNat

/-- a = v[23:16] (R72). -/
def aField (v : Word) : Byte := v.extractLsb' 16 8

/-- b = v[31:24] (R72). -/
def bField (v : Word) : Byte := v.extractLsb' 24 8

/-- The command that the OP field names, with the operands its form takes from the word (R72, R73); none for a
reserved OP. -/
def decodeOp (v : Word) : Option Instr :=
  match opField v with
  | 0x00#8 => some .nop
  | 0x01#8 => some .keyexp
  | 0x02#8 => some .clrerr
  | 0x10#8 => some (.addrk (rndField v))
  | 0x11#8 => some .subb
  | 0x12#8 => some .shrow
  | 0x13#8 => some .mixcol
  | 0x14#8 => some (.encrnd (rndField v))
  | 0x15#8 => some (.encfin (rndField v))
  | 0x18#8 => some .encblk
  | 0x21#8 => some .isubb
  | 0x22#8 => some .ishrow
  | 0x23#8 => some .imixcol
  | 0x24#8 => some (.decrnd (rndField v))
  | 0x25#8 => some (.decfin (rndField v))
  | 0x28#8 => some .decblk
  | 0x30#8 => some (.gfmul (aField v) (bField v))
  | 0x31#8 => some (.sbox (aField v))
  | 0x32#8 => some (.isbox (aField v))
  | _ => none

/-- The 19 rows of the opcode map as (mask, match), in the order of spec/opcode_table.json (R73, R74). -/
def opcodeRows : List (Word × Word) :=
  [(0xFFFFFFFF#32, 0x00000000#32), (0xFFFFFFFF#32, 0x00000001#32), (0xFFFFFFFF#32, 0x00000002#32), (0xFFFFF0FF#32, 0x00000010#32), (0xFFFFFFFF#32, 0x00000011#32),
   (0xFFFFFFFF#32, 0x00000012#32), (0xFFFFFFFF#32, 0x00000013#32), (0xFFFFF0FF#32, 0x00000014#32), (0xFFFFF0FF#32, 0x00000015#32), (0xFFFFFFFF#32, 0x00000018#32),
   (0xFFFFFFFF#32, 0x00000021#32), (0xFFFFFFFF#32, 0x00000022#32), (0xFFFFFFFF#32, 0x00000023#32), (0xFFFFF0FF#32, 0x00000024#32), (0xFFFFF0FF#32, 0x00000025#32),
   (0xFFFFFFFF#32, 0x00000028#32), (0x0000FFFF#32, 0x00000030#32), (0xFF00FFFF#32, 0x00000031#32), (0xFF00FFFF#32, 0x00000032#32)]

/-- The row's test, `(v & mask) == match`, where match is the OP value (R74). -/
def rowMatches (i : Instr) (v : Word) : Bool := v &&& i.form.mask == i.opcode.setWidth 32

/-- Decoding (R74): "every 32-bit word either selects exactly one command or is illegal". -/
def decode (v : Word) : Except Illegal Instr :=
  match decodeOp v with
  | none => .error .reservedOp
  | some i => if rowMatches i v then .ok i else .error .reservedBits

/-- The RND field of a command's word: 0 where the form does not use it (R71). -/
def Instr.rndBits : Instr → BitVec 4
  | .addrk i | .encrnd i | .encfin i | .decrnd i | .decfin i => BitVec.ofNat 4 i
  | .nop | .keyexp | .clrerr | .subb | .shrow | .mixcol | .encblk => 0#4
  | .isubb | .ishrow | .imixcol | .decblk => 0#4
  | .gfmul _ _ | .sbox _ | .isbox _ => 0#4

/-- The A field of a command's word: 0 where the form does not use it (R71). -/
def Instr.aBits : Instr → Byte
  | .gfmul a _ => a
  | .sbox a => a
  | .isbox a => a
  | .addrk _ | .encrnd _ | .encfin _ | .decrnd _ | .decfin _ => 0#8
  | .nop | .keyexp | .clrerr | .subb | .shrow | .mixcol | .encblk => 0#8
  | .isubb | .ishrow | .imixcol | .decblk => 0#8

/-- The B field of a command's word: 0 where the form does not use it (R71). -/
def Instr.bBits : Instr → Byte
  | .gfmul _ b => b
  | .sbox _ | .isbox _ => 0#8
  | .addrk _ | .encrnd _ | .encfin _ | .decrnd _ | .decfin _ => 0#8
  | .nop | .keyexp | .clrerr | .subb | .shrow | .mixcol | .encblk => 0#8
  | .isubb | .ishrow | .imixcol | .decblk => 0#8

/-- The word of a command (R70's format C, fields from bit 31 down): B, A, four zero bits, RND, OP. -/
def encode (i : Instr) : Word := i.bBits ++ i.aBits ++ 0#4 ++ i.rndBits ++ i.opcode

/-- The command that the decoder reads from the low `nbits` of `w` (R76: every command is one 32-bit word). -/
def decodeTableWord (nbits w : Nat) : Option Instr :=
  match decode (BitVec.ofNat 32 (w % 2 ^ nbits)) with
  | .ok i => some i
  | .error _ => none

end Sys2Proof
end

