-- ==== Sys2Proof/Machine/State.lean ====
section
/-! DEFINITION. Everything AESCORE holds (10_state.md), the host's events that reach it (20_memory.md R41 to R44), the reasons a step can stop, and the machine right after reset (R34). -/

namespace Sys2Proof.Machine

/-- One column of the state matrix: its bytes in rows 0 to 3 (R22). -/
structure Column where
  r0 : Byte
  r1 : Byte
  r2 : Byte
  r3 : Byte
deriving DecidableEq, Repr

/-- The 4×4 byte matrix of R22, held by columns 0 to 3. -/
structure Block where
  c0 : Column
  c1 : Column
  c2 : Column
  c3 : Column
deriving DecidableEq, Repr

/-- The error codes of STATUS.ERR that can occur (R212); codes 6 and 7 are "reserved, never produced". -/
inductive ErrCode where
  /-- 0: no error since reset or CLRERR. -/
  | none
  /-- 1: KEYEXP with CTRL.KSIZE = 3 (R213). -/
  | config
  /-- 2: a command that reads round keys while KSV = 0 (R214). -/
  | nokey
  /-- 3: round index i > NR (R215). -/
  | range
  /-- 4: a CMD word that decodes to no command (R216). -/
  | illegal
  /-- 5: a guarded write while BUSY = 1 (R217). -/
  | busy
deriving DecidableEq, Repr

/-- The width of a bus access. The bus defines only the 32-bit one (R43). -/
inductive Width where
  | byte
  | half
  | word
deriving DecidableEq, Repr

/-- What a bus access asks for: `BusRead(off)` or `BusWrite(off, v)` (R10). -/
inductive BusOp where
  | read
  | write (v : Word)
deriving DecidableEq, Repr

/-- One host access at an offset of the register window (R41). -/
structure Access where
  offset : BitVec 8
  width : Width
  op : BusOp
deriving DecidableEq, Repr

/-- What the outside can do to the core: log 1. -/
inductive HostEvent where
  /-- an access by the one host (R60). -/
  | access (a : Access)
  /-- an access by a second host, "not defined" (R60). -/
  | otherHost (a : Access)
  /-- the level of the reset input sampled at a clock edge (R250). -/
  | rst (level : Bool)
deriving DecidableEq, Repr

/-- There is no fault: "AESCORE never traps, halts or stops accepting bus accesses because of an error" (R210).
The type has no constructor, so a step that faults cannot be written (log 14). -/
inductive Fault where
deriving DecidableEq, Repr

/-- Why the model gives an event no meaning. -/
inductive Refusal where
  /-- raised by an arm of `exec` whose command has no meaning yet; no arm is left that does. Safe. -/
  | notModelled (mnemonic : String)
  /-- raised by the bus on an 8-bit or 16-bit access: "the model gives such an access no meaning and refuses it"
  (R43). Safe: no claim can be proved about a program that makes one. -/
  | subWordAccess
  /-- raised by the bus on an access with `off[1:0] != 0`: "The model refuses it" (R44). Safe. -/
  | misalignedAccess
  /-- raised by the bus on an access by a second host: "is not defined, and a model refuses it" (R60). Safe. -/
  | secondHost
deriving DecidableEq, Repr

/-- The state of AESCORE: the elements of R34, the level of `rst` (R41), and the model's own four fields. -/
structure State where
  /-- ST, the block state register (R22). -/
  st : Block
  /-- KEY[0..7], the key input registers (R23). -/
  key : Vector Word 8
  /-- KS[0..59], the key-schedule RAM (R24). -/
  ks : Vector Word 60
  /-- KSV: KS holds a complete schedule (R26). -/
  ksv : Bool
  /-- NR: the round count of that schedule (R26). -/
  nr : BitVec 4
  /-- CTRL.KSIZE (R27). -/
  ksize : BitVec 2
  /-- STATUS.ERR (R28). -/
  err : ErrCode
  /-- RESULT.VAL (R29). -/
  result : Byte
  /-- KSIDX.IDX (R30). -/
  ksidx : BitVec 6
  /-- PEND: the command accepted and not yet completed, or none (R32). STATUS.BUSY is 1 exactly when this is not
  none (R52, log 4). -/
  pend : Option Instr
  /-- RCTR: the hidden round counter (R32). Its width is DESIGN CHOICE (log 6): no rule gives one, and 4 bits hold the values 0 to NR
  that R153 and R182 let it take. -/
  rctr : BitVec 4
  /-- the level of the reset input (R41, R250). -/
  rst : Bool
  /-- the model's own: the host's events not yet taken, oldest first (log 1). -/
  inbox : List HostEvent
  /-- the model's own: what bus reads have returned, newest first (log 1). -/
  replies : List Word
  /-- the model's own: host slots left before the running command completes (R52, log 2). -/
  countdown : Nat
  /-- the model's own: how many free values have been drawn (log 3). -/
  draws : Nat
deriving DecidableEq, Repr

/-- Four zero bytes. -/
def Column.zero : Column := ⟨0#8, 0#8, 0#8, 0#8⟩

/-- Sixteen zero bytes. -/
def Block.zero : Block := ⟨Column.zero, Column.zero, Column.zero, Column.zero⟩

/-- The machine right after reset (R34, R250, R253): every element of R34 at its reset value, the core idle. The
values of `rst`, `inbox`, `replies`, `countdown` and `draws` are the model's (log 7). -/
def State.reset : State where
  st := Block.zero
  key := Vector.replicate 8 0#32
  ks := Vector.replicate 60 0#32
  ksv := false
  nr := 0#4
  ksize := 0#2
  err := .none
  result := 0#8
  ksidx := 0#6
  pend := none
  rctr := 0#4
  rst := false
  inbox := []
  replies := []
  countdown := 0
  draws := 0

end Sys2Proof.Machine
end

