-- ==== Sys2Proof/Config.lean ====
section
/-! DEFINITION. What the spec leaves open (00_scope.md R8, 93_implementation_defined.md section 2): the platform's parameters and the free values. None has a body, so a claim about the machine holds for every value of each. -/

namespace Sys2Proof

/-- `BASE` (R8, R41): the platform address of the register window. It only places the window; an access reaches
the core as an 8-bit offset. -/
opaque Config.base : Nat

/-- The platform address at which the host reaches `offset` of the window (R41). -/
def Config.address (offset : BitVec 8) : Nat := Config.base + offset.toNat

/-- `KS_READABLE` (R57): whether KSDATA returns key-schedule words. -/
opaque Config.ksReadable : Bool

/-- The draws (R12 "Draw", R53, R250): the free value that a bus read returns in a state. It may depend on all the data, and the
count of draws in the state never repeats in a run, so two draws of a run are unrelated (log 3). -/
opaque Config.drawWord : Machine.State → Word

/-- `LAT(op)` (R52, R262): how many host slots pass between the acceptance of a command and its completion. It 
"may differ by opcode and by data": it is a free function of the command and of the whole state that accepts it, and the count of
draws in that state never repeats in a run, so it may also differ between two runs of one command on the same data (log 2). -/
opaque Config.latency : Instr → Machine.State → Nat

end Sys2Proof
end

