-- ==== Sys2Proof/Machine/Ops.lean ====
section
/-! DEFINITION. The named operations over the state: bytes of a word (00_scope.md R10), the state matrix and its column-major loader (20_memory.md R50, R51), recording an error (60_exceptions.md R211), a command's life from presentation to completion (R47, R52, R219, R220), replies to the host and their draws (R53), and reset (70_reset_and_hazards.md R250). -/

namespace Sys2Proof.Machine

/-- What a step or a meaning answers. -/
abbrev Result := Host.Outcome State Fault Refusal

/-! ## Bytes of a word and the state matrix -/

/-- `Wbyte(w, j) = w[31-8j : 24-8j]` (R10): byte 0 is the most significant (R58). -/
def wbyte (w : Word) (j : Fin 4) : Byte := w.extractLsb' (24 - 8 * j.val) 8

/-- The word whose bytes 0 to 3 are the given ones (R58). -/
def packWord (b0 b1 b2 b3 : Byte) : Word := b0 ++ b1 ++ b2 ++ b3

/-- Byte `r` of a column. -/
def Column.get (c : Column) (r : Fin 4) : Byte :=
  match r with
  | 0 => c.r0
  | 1 => c.r1
  | 2 => c.r2
  | 3 => c.r3

/-- Column `c` of the matrix. -/
def Block.col (S : Block) (c : Fin 4) : Column :=
  match c with
  | 0 => S.c0
  | 1 => S.c1
  | 2 => S.c2
  | 3 => S.c3

/-- `ST[r][c]` (R10, R22). -/
def Block.get (S : Block) (r c : Fin 4) : Byte := (S.col c).get r

/-- The column whose byte `r` is `f r`. -/
def Column.ofFn (f : Fin 4 → Byte) : Column := ⟨f 0, f 1, f 2, f 3⟩

/-- The matrix whose byte `[r][c]` is `f r c`. -/
def Block.ofFn (f : Fin 4 → Fin 4 → Byte) : Block :=
  ⟨Column.ofFn fun r => f r 0, Column.ofFn fun r => f r 1, Column.ofFn fun r => f r 2, Column.ofFn fun r => f r 3⟩

/-- The 32-bit word of a column, `{ST[0][c], ST[1][c], ST[2][c], ST[3][c]}` (R51). -/
def Column.toWord (c : Column) : Word := packWord c.r0 c.r1 c.r2 c.r3

/-- The column a word loads: row `r` takes `v[31-8r : 24-8r]` (R50). -/
def Column.ofWord (v : Word) : Column := Column.ofFn (wbyte v)

/-- The matrix with column `c` replaced, the others unchanged (R50). -/
def Block.setCol (S : Block) (c : Fin 4) (v : Column) : Block :=
  match c with
  | 0 => { S with c0 := v }
  | 1 => { S with c1 := v }
  | 2 => { S with c2 := v }
  | 3 => { S with c3 := v }

/-! ## STATUS.BUSY and STATUS.ERR -/

/-- STATUS.BUSY: "1 from the acceptance of a command until its completion" (R28), that is while PEND holds one. -/
def State.busy (s : State) : Bool := s.pend.isSome

/-- `raise Err(code)`: "if STATUS.ERR = 0: STATUS.ERR <- code, and nothing else" (R211). -/
def State.raise (s : State) (code : ErrCode) : State :=
  if s.err = .none then { s with err := code } else s

/-! ## A command's life -/

/-- Acceptance (R52): `STATUS.BUSY <- 1` and `PEND <- the command`; the time to its completion is drawn (log 2). -/
def State.accept (s : State) (c : Instr) : State :=
  { s with pend := some c, countdown := Config.latency c s, draws := s.draws + 1 }

/-- The end of a completion (R52): "then sets `PEND <- none` and `STATUS.BUSY <- 0`". -/
def State.finish (s : State) : State := { s with pend := none }

/-- Command `c` is running and its time has come: this step is its completion (R52). -/
def State.due (s : State) (c : Instr) : Bool := decide (s.pend = some c ∧ s.countdown = 0)

/-- What becomes of command `c` in `s`, the one operation every meaning goes through.
If `c` is due, it completes: all its writes land (`done`) and the core is idle (R52).
If another command is running, `c` is turned away: "dropped, and raise Err(BUSY)" (R47, R54, R217).
Otherwise `c` is presented: the error of its first failing check is recorded and nothing else happens (R219, R220),
or it is accepted (R47, R52). -/
def command (c : Instr) (failed : Option ErrCode) (done : State) (s : State) : Result :=
  if s.due c then .next done.finish
  else if s.busy then .next (s.raise .busy)
  else
    match failed with
    | some code => .next (s.raise code)
    | none => .next (s.accept c)

/-! ## The state element that most commands write -/

/-- `ST <- S`. -/
def State.setSt (s : State) (S : Block) : State := { s with st := S }

/-- `RESULT.VAL <- v`. -/
def State.setResult (s : State) (v : Byte) : State := { s with result := v }

/-! ## Replies to the host -/

/-- A bus read returns `v` (R10). -/
def State.reply (s : State) (v : Word) : State := { s with replies := v :: s.replies }

/-- The next draw (R12, R53). -/
def State.draw (s : State) : Word := Config.drawWord s

/-- A draw has been used. -/
def State.drawn (s : State) : State := { s with draws := s.draws + 1 }

/-! ## Reset -/

/-- Every element of R34 at its reset value (R250). The host's side (what it has sent, what it has been told, the
level of `rst`) and the count of draws are outside the core and stay. -/
def State.cleared (s : State) : State :=
  { State.reset with rst := s.rst, inbox := s.inbox, replies := s.replies, draws := s.draws }

/-- The level of `rst` as sampled; a high level resets every element (R250). -/
def State.sampleRst (s : State) (level : Bool) : State :=
  if level then { s.cleared with rst := true } else { s with rst := false }

end Sys2Proof.Machine
end

