-- ==== Sys2Proof/Machine/Control.lean ====
section
/-! DEFINITION. The control commands NOP and CLRERR (44_control.md). -/

namespace Sys2Proof.Machine

/-- NOP (R200): "nothing at completion". -/
def execNop (s : State) : Result := command .nop none s s

/-- CLRERR (R201): "at completion: STATUS.ERR <- 0". -/
def execClrerr (s : State) : Result := command .clrerr none { s with err := .none } s

end Sys2Proof.Machine
end

