-- ==== Sys2Proof/Machine/Operands.lean ====
section
/-! DEFINITION. What commands take as operands besides their fields: key words (10_state.md R23), the key size (41_key_expansion.md R120), schedule words and round keys (R24, R25); and the acceptance checks on them (60_exceptions.md R213 to R215). -/

namespace Sys2Proof.Machine

/-- `Nk`, the key length in words, for a KSIZE (R120); 0 for the reserved value 3, which KEYEXP never uses. -/
def nkOf (ksize : BitVec 2) : Nat :=
  match ksize with
  | 0#2 => 4
  | 1#2 => 6
  | 2#2 => 8
  | _ => 0

/-- `Nr`, the number of rounds, for a KSIZE (R120); 0 for the reserved value 3, which KEYEXP never uses. -/
def nrOf (ksize : BitVec 2) : Nat :=
  match ksize with
  | 0#2 => 10
  | 1#2 => 12
  | 2#2 => 14
  | _ => 0

/-- How many schedule words `Nr` rounds take: `4*(Nr+1)` (R24). -/
def scheduleWords (nr : Nat) : Nat := 4 * (nr + 1)

/-- `KS[n]` (R10). The RAM has 60 words (R24); no rule reads a word past them while a schedule is well formed
(log 12). -/
def ksWord (ks : Vector Word 60) (n : Nat) : Word := if h : n < 60 then ks[n] else 0#32

/-- `RK(i)[r][c] = Wbyte(KS[4i + c], r)` (R25): word 4i+c is column c. -/
def roundKey (ks : Vector Word 60) (i : Nat) : Block := Block.ofFn fun r c => wbyte (ksWord ks (4 * i + c.val)) r

/-- CONFIG: "raised at the acceptance check of KEYEXP when CTRL.KSIZE = 3" (R213). -/
def State.configCheck (s : State) : Option ErrCode := if s.ksize = 3#2 then some .config else none

/-- NOKEY: raised by a command that reads round keys "when KSV = 0" (R214). -/
def State.keyCheck (s : State) : Option ErrCode := if s.ksv then none else some .nokey

/-- NOKEY, then RANGE: "when KSV = 1 and CMD.RND > NR" (R215, order of R219). -/
def State.roundCheck (s : State) (i : Nat) : Option ErrCode :=
  if s.ksv then (if s.nr.toNat < i then some .range else none) else some .nokey

end Sys2Proof.Machine
end

