-- ==== Sys2Proof/Machine/Field.lean ====
section
/-! DEFINITION. The GF(2^8) multiplier (40_field_sbox.md R100) and the command GFMUL (R107). -/

namespace Sys2Proof.Machine

/-- Doubling in the field (R100): shift left one bit, "if the 9th bit would be set, XOR `a` with 0x1B". -/
def xtime (a : Byte) : Byte := if a.getLsbD 7 then (a <<< 1) ^^^ 0x1B#8 else a <<< 1

/-- `n` iterations of the multiplier's loop (R100) with accumulator `p`. -/
def gmulLoop (n : Nat) (p a b : Byte) : Byte :=
  match n with
  | 0 => p
  | n + 1 => gmulLoop n (if b.getLsbD 0 then p ^^^ a else p) (xtime a) (b >>> 1)

/-- `gmul(a, b)`, the product modulo x^8+x^4+x^3+x+1 (R100): "for 8 iterations". -/
def gmul (a b : Byte) : Byte := gmulLoop 8 0#8 a b

/-- GFMUL (R107): "at completion: RESULT.VAL <- gmul(a, b)". -/
def execGfmul (a b : Byte) (s : State) : Result := command (.gfmul a b) none (s.setResult (gmul a b)) s

end Sys2Proof.Machine
end

