-- ==== Sys2Proof/Machine/Encrypt.lean ====
section
/-! DEFINITION. The forward transformations, round and cipher, and the commands ADDRK, SUBB, SHROW, MIXCOL, ENCRND, ENCFIN and ENCBLK (42_round_encrypt.md). -/

namespace Sys2Proof.Machine

/-! ## Transformations -/

/-- `AddRoundKey(S, K)[r][c] = S[r][c] ^ K[r][c]` (R140). -/
def addRoundKey (S K : Block) : Block := Block.ofFn fun r c => S.get r c ^^^ K.get r c

/-- `SubBytes(S)[r][c] = SBOX[S[r][c]]` (R141). -/
def subBytes (S : Block) : Block := Block.ofFn fun r c => subByte (S.get r c)

/-- `ShiftRows(S)[r][c] = S[r][(c + r) mod 4]` (R142); addition in `Fin 4` is modulo 4. -/
def shiftRows (S : Block) : Block := Block.ofFn fun r c => S.get r (c + r)

/-- A 4×4 matrix of field coefficients, by rows. -/
def coefficient (m : List (List Byte)) (r k : Fin 4) : Byte := (m.getD r.val []).getD k.val 0#8

/-- The field product of a matrix with every column of the state, XOR of four gmul products (R143, R172). -/
def matrixColumns (m : List (List Byte)) (S : Block) : Block :=
  Block.ofFn fun r c =>
    gmul (coefficient m r 0) (S.get 0 c) ^^^ gmul (coefficient m r 1) (S.get 1 c) ^^^
      gmul (coefficient m r 2) (S.get 2 c) ^^^ gmul (coefficient m r 3) (S.get 3 c)

/-- `M` of R143. -/
def mixMatrix : List (List Byte) :=
  [[0x02#8, 0x03#8, 0x01#8, 0x01#8],
   [0x01#8, 0x02#8, 0x03#8, 0x01#8],
   [0x01#8, 0x01#8, 0x02#8, 0x03#8],
   [0x03#8, 0x01#8, 0x01#8, 0x02#8]]

/-- `MixColumns(S)` (R143). -/
def mixColumns (S : Block) : Block := matrixColumns mixMatrix S

/-! ## Round and cipher -/

/-- `EncRound(S, i) = AddRoundKey(MixColumns(ShiftRows(SubBytes(S))), RK(i))` (R144). -/
def encRound (ks : Vector Word 60) (S : Block) (i : Nat) : Block :=
  addRoundKey (mixColumns (shiftRows (subBytes S))) (roundKey ks i)

/-- `EncFinal(S, i) = AddRoundKey(ShiftRows(SubBytes(S)), RK(i))` (R144). -/
def encFinal (ks : Vector Word 60) (S : Block) (i : Nat) : Block :=
  addRoundKey (shiftRows (subBytes S)) (roundKey ks i)

/-- Rounds `i`, `i+1`, ..., `i+n-1` in that order. -/
def encRounds (ks : Vector Word 60) (n i : Nat) (S : Block) : Block :=
  match n with
  | 0 => S
  | n + 1 => encRounds ks n (i + 1) (encRound ks S i)

/-- `Cipher(S)` for a schedule with `nr` rounds (R145): AddRoundKey 0, rounds 1 to nr-1, the final round nr. -/
def cipher (ks : Vector Word 60) (nr : Nat) (S : Block) : Block :=
  encFinal ks (encRounds ks (nr - 1) 1 (addRoundKey S (roundKey ks 0))) nr

/-! ## The sequence of ENCBLK with its hidden round counter -/

/-- The working state S and RCTR of a running block command (R153, R182). -/
structure Sequence where
  work : Block
  rctr : Nat

/-- Init and AddRoundKey₀ of R153: RCTR is 1 afterwards. -/
def encStart (ks : Vector Word 60) (S : Block) : Sequence := ⟨addRoundKey S (roundKey ks 0), 1⟩

/-- The Round step of R153: "while RCTR < NR, S <- EncRound(S, RCTR) and RCTR <- RCTR + 1". -/
def encAdvance (ks : Vector Word 60) (nr : Nat) (q : Sequence) : Sequence :=
  if q.rctr < nr then ⟨encRound ks q.work q.rctr, q.rctr + 1⟩ else q

/-- `n` Round steps. -/
def encLoop (ks : Vector Word 60) (nr n : Nat) (q : Sequence) : Sequence :=
  match n with
  | 0 => q
  | n + 1 => encLoop ks nr n (encAdvance ks nr q)

/-- The whole sequence of R153; `nr` Round steps are more than the loop takes. -/
def encSequence (ks : Vector Word 60) (nr : Nat) (S : Block) : Sequence :=
  let q := encLoop ks nr nr (encStart ks S)
  ⟨encFinal ks q.work nr, q.rctr⟩

/-! ## Commands -/

/-- ADDRK (R146): `ST <- AddRoundKey(ST, RK(i))`. -/
def execAddrk (i : Nat) (s : State) : Result :=
  command (.addrk i) (s.roundCheck i) (s.setSt (addRoundKey s.st (roundKey s.ks i))) s

/-- SUBB (R147): `ST <- SubBytes(ST)`. -/
def execSubb (s : State) : Result := command .subb none (s.setSt (subBytes s.st)) s

/-- SHROW (R148): `ST <- ShiftRows(ST)`. -/
def execShrow (s : State) : Result := command .shrow none (s.setSt (shiftRows s.st)) s

/-- MIXCOL (R149): `ST <- MixColumns(ST)`. -/
def execMixcol (s : State) : Result := command .mixcol none (s.setSt (mixColumns s.st)) s

/-- ENCRND (R150): `ST <- EncRound(ST, i)`. -/
def execEncrnd (i : Nat) (s : State) : Result :=
  command (.encrnd i) (s.roundCheck i) (s.setSt (encRound s.ks s.st i)) s

/-- ENCFIN (R151): `ST <- EncFinal(ST, i)`. -/
def execEncfin (i : Nat) (s : State) : Result :=
  command (.encfin i) (s.roundCheck i) (s.setSt (encFinal s.ks s.st i)) s

/-- The writes of ENCBLK: `ST <- Cipher(ST)` with Nr = NR (R152), and RCTR as its sequence leaves it (R153, log 6). -/
def State.encryptBlock (s : State) : State :=
  { s with st := cipher s.ks s.nr.toNat s.st,
           rctr := BitVec.ofNat 4 (encSequence s.ks s.nr.toNat s.st).rctr }

/-- ENCBLK (R152). -/
def execEncblk (s : State) : Result := command .encblk s.keyCheck s.encryptBlock s

end Sys2Proof.Machine
end

