-- ==== Sys2Proof/Machine/Decrypt.lean ====
section
/-! DEFINITION. The inverse transformations, round and cipher, and the commands ISUBB, ISHROW, IMIXCOL, DECRND, DECFIN and DECBLK (43_round_decrypt.md; the order of 90_conflicts.md C3). -/

namespace Sys2Proof.Machine

/-! ## Inverse transformations -/

/-- `InvShiftRows(S)[r][c] = S[r][(c - r) mod 4]` (R170); subtraction in `Fin 4` is modulo 4. -/
def invShiftRows (S : Block) : Block := Block.ofFn fun r c => S.get r (c - r)

/-- `InvSubBytes(S)[r][c] = INVSBOX[S[r][c]]` (R171). -/
def invSubBytes (S : Block) : Block := Block.ofFn fun r c => invSubByte (S.get r c)

/-- `IM` of R172. -/
def invMixMatrix : List (List Byte) :=
  [[0x0E#8, 0x0B#8, 0x0D#8, 0x09#8],
   [0x09#8, 0x0E#8, 0x0B#8, 0x0D#8],
   [0x0D#8, 0x09#8, 0x0E#8, 0x0B#8],
   [0x0B#8, 0x0D#8, 0x09#8, 0x0E#8]]

/-- `InvMixColumns(S)` (R172). -/
def invMixColumns (S : Block) : Block := matrixColumns invMixMatrix S

/-! ## Inverse round and cipher -/

/-- `DecRound(S, i) = InvMixColumns(AddRoundKey(InvSubBytes(InvShiftRows(S)), RK(i)))` (R173). -/
def decRound (ks : Vector Word 60) (S : Block) (i : Nat) : Block :=
  invMixColumns (addRoundKey (invSubBytes (invShiftRows S)) (roundKey ks i))

/-- `DecFinal(S, i) = AddRoundKey(InvSubBytes(InvShiftRows(S)), RK(i))` (R173). -/
def decFinal (ks : Vector Word 60) (S : Block) (i : Nat) : Block :=
  addRoundKey (invSubBytes (invShiftRows S)) (roundKey ks i)

/-- Inverse rounds `n`, `n-1`, ..., `1` in that order. -/
def decRounds (ks : Vector Word 60) (n : Nat) (S : Block) : Block :=
  match n with
  | 0 => S
  | n + 1 => decRounds ks n (decRound ks S (n + 1))

/-- `InvCipher(S)` for a schedule with `nr` rounds (R174). -/
def invCipher (ks : Vector Word 60) (nr : Nat) (S : Block) : Block :=
  decFinal ks (decRounds ks (nr - 1) (addRoundKey S (roundKey ks nr))) 0

/-! ## The sequence of DECBLK with its hidden round counter -/

/-- Init and AddRoundKey of R182: RCTR is NR - 1 afterwards. -/
def decStart (ks : Vector Word 60) (nr : Nat) (S : Block) : Sequence := ⟨addRoundKey S (roundKey ks nr), nr - 1⟩

/-- The InvRound step of R182: "while RCTR >= 1, S <- DecRound(S, RCTR) and RCTR <- RCTR - 1". -/
def decAdvance (ks : Vector Word 60) (q : Sequence) : Sequence :=
  if 1 ≤ q.rctr then ⟨decRound ks q.work q.rctr, q.rctr - 1⟩ else q

/-- `n` InvRound steps. -/
def decLoop (ks : Vector Word 60) (n : Nat) (q : Sequence) : Sequence :=
  match n with
  | 0 => q
  | n + 1 => decLoop ks n (decAdvance ks q)

/-- The whole sequence of R182; `nr` InvRound steps are more than the loop takes. -/
def decSequence (ks : Vector Word 60) (nr : Nat) (S : Block) : Sequence :=
  let q := decLoop ks nr (decStart ks nr S)
  ⟨decFinal ks q.work 0, q.rctr⟩

/-! ## Commands -/

/-- ISUBB (R176): `ST <- InvSubBytes(ST)`. -/
def execIsubb (s : State) : Result := command .isubb none (s.setSt (invSubBytes s.st)) s

/-- ISHROW (R177): `ST <- InvShiftRows(ST)`. -/
def execIshrow (s : State) : Result := command .ishrow none (s.setSt (invShiftRows s.st)) s

/-- IMIXCOL (R178): `ST <- InvMixColumns(ST)`. -/
def execImixcol (s : State) : Result := command .imixcol none (s.setSt (invMixColumns s.st)) s

/-- DECRND (R179): `ST <- DecRound(ST, i)`. -/
def execDecrnd (i : Nat) (s : State) : Result :=
  command (.decrnd i) (s.roundCheck i) (s.setSt (decRound s.ks s.st i)) s

/-- DECFIN (R180): `ST <- DecFinal(ST, i)`. -/
def execDecfin (i : Nat) (s : State) : Result :=
  command (.decfin i) (s.roundCheck i) (s.setSt (decFinal s.ks s.st i)) s

/-- The writes of DECBLK: `ST <- InvCipher(ST)` with Nr = NR (R181), and RCTR as its sequence leaves it (R182, log 6). -/
def State.decryptBlock (s : State) : State :=
  { s with st := invCipher s.ks s.nr.toNat s.st,
           rctr := BitVec.ofNat 4 (decSequence s.ks s.nr.toNat s.st).rctr }

/-- DECBLK (R181). -/
def execDecblk (s : State) : Result := command .decblk s.keyCheck s.decryptBlock s

end Sys2Proof.Machine
end

