-- ==== Sys2Proof/Machine/KeyExpansion.lean ====
section
/-! DEFINITION. The key-expansion engine and the command KEYEXP (41_key_expansion.md). -/

namespace Sys2Proof.Machine

/-- RCON[1..10] as R121 lists it. -/
def rconRom : List Byte := [0x01#8, 0x02#8, 0x04#8, 0x08#8, 0x10#8, 0x20#8, 0x40#8, 0x80#8, 0x1B#8, 0x36#8]

/-- `RCON[j]` for j in 1..10 (R121). -/
def rcon (j : Nat) : Byte := rconRom.getD (j - 1) 0#8

/-- `RotWord(t) = {t[23:0], t[31:24]}` (R122). -/
def rotWord (t : Word) : Word := t.extractLsb' 0 24 ++ t.extractLsb' 24 8

/-- `SubWord(t)`: "substitute every byte via the S-box" (R123). -/
def subWord (t : Word) : Word :=
  packWord (subByte (wbyte t 0)) (subByte (wbyte t 1)) (subByte (wbyte t 2)) (subByte (wbyte t 3))

/-- What R124 makes of `temp = W[i-1]` before the XOR with `W[i-Nk]`. -/
def expandTemp (nk i : Nat) (temp : Word) : Word :=
  if i % nk = 0 then subWord (rotWord temp) ^^^ (rcon (i / nk) ++ 0#24)
  else if nk = 8 ∧ i % nk = 4 then subWord temp
  else temp

/-- The word that the recurrence of R124 appends to the words `w` computed so far; its index is `w.length`. -/
def nextWord (nk : Nat) (w : List Word) : Word :=
  w.getD (w.length - nk) 0#32 ^^^ expandTemp nk w.length (w.getD (w.length - 1) 0#32)

/-- `n` more words of the recurrence. -/
def extend (nk : Nat) (n : Nat) (w : List Word) : List Word :=
  match n with
  | 0 => w
  | n + 1 => extend nk n (w ++ [nextWord nk w])

/-- `Expand(K, Nk, Nr)` (R124): seed with the key's words, then one word at a time up to `4*(Nr+1)`. -/
def expand (k : List Word) (nk nr : Nat) : List Word := extend nk (scheduleWords nr - nk) k

/-- KEY[0..Nk-1] (R23): "KEYEXP ignores the remaining words". -/
def keyWords (key : Vector Word 8) (nk : Nat) : List Word := key.toList.take nk

/-- KS after KEYEXP (R125): `KS[i] <- (i < 4*(Nr+1)) ? W[i] : 0`. -/
def scheduleRam (w : List Word) (nr : Nat) : Vector Word 60 :=
  Vector.ofFn fun i => if i.val < scheduleWords nr then w.getD i.val 0#32 else 0#32

/-- The schedule of the key in KEY for the size in CTRL.KSIZE (R125). -/
def State.newSchedule (s : State) : Vector Word 60 :=
  scheduleRam (expand (keyWords s.key (nkOf s.ksize)) (nkOf s.ksize) (nrOf s.ksize)) (nrOf s.ksize)

/-- The writes of KEYEXP (R125): KS, NR and KSV. -/
def State.expandKey (s : State) : State :=
  { s with ks := s.newSchedule, nr := BitVec.ofNat 4 (nrOf s.ksize), ksv := true }

/-- KEYEXP (R125): CONFIG "checked at acceptance; nothing else changes", else the new schedule at completion. -/
def execKeyexp (s : State) : Result := command .keyexp s.configCheck s.expandKey s

end Sys2Proof.Machine
end

