-- ==== Sys2Proof/Machine/Dispatch.lean ====
section
/-! DEFINITION. exec: one arm per command of 30_encoding.md R73, each a call of its meaning. -/

namespace Sys2Proof.Machine

def exec (i : Instr) (s : State) : Host.Outcome State Fault Refusal :=
  match i with
  | .nop => Sys2Proof.Machine.execNop s
  | .keyexp => Sys2Proof.Machine.execKeyexp s
  | .clrerr => Sys2Proof.Machine.execClrerr s
  | .addrk n => Sys2Proof.Machine.execAddrk n s
  | .subb => Sys2Proof.Machine.execSubb s
  | .shrow => Sys2Proof.Machine.execShrow s
  | .mixcol => Sys2Proof.Machine.execMixcol s
  | .encrnd n => Sys2Proof.Machine.execEncrnd n s
  | .encfin n => Sys2Proof.Machine.execEncfin n s
  | .encblk => Sys2Proof.Machine.execEncblk s
  | .isubb => Sys2Proof.Machine.execIsubb s
  | .ishrow => Sys2Proof.Machine.execIshrow s
  | .imixcol => Sys2Proof.Machine.execImixcol s
  | .decrnd n => Sys2Proof.Machine.execDecrnd n s
  | .decfin n => Sys2Proof.Machine.execDecfin n s
  | .decblk => Sys2Proof.Machine.execDecblk s
  | .gfmul a b => Sys2Proof.Machine.execGfmul a b s
  | .sbox a => Sys2Proof.Machine.execSbox a s
  | .isbox a => Sys2Proof.Machine.execIsbox a s

end Sys2Proof.Machine
end

