-- ==== Sys2Proof/Machine/Flags.lean ====
section
/-! DEFINITION. STATUS as a word (10_state.md R28, 20_memory.md R48, R53). AESCORE has no condition codes and no arithmetic flags (R33). -/

namespace Sys2Proof.Machine

/-- The 3-bit code of an error (R212). -/
def ErrCode.code : ErrCode → BitVec 3
  | .none => 0#3
  | .config => 1#3
  | .nokey => 2#3
  | .range => 3#3
  | .illegal => 4#3
  | .busy => 5#3

/-- `{20'b0, NR[3:0], 1'b0, ERR[2:0], 2'b0, KSV, BUSY}` (R48). -/
def statusLayout (nr : BitVec 4) (err : ErrCode) (ksv busy : Bool) : Word :=
  0#20 ++ nr ++ 0#1 ++ err.code ++ 0#2 ++ BitVec.ofBool ksv ++ BitVec.ofBool busy

/-- `BusRead(0x08)` with BUSY = 0 (R48). -/
def State.statusIdle (s : State) : Word := statusLayout s.nr s.err s.ksv s.busy

/-- `BusRead(0x08)` with BUSY = 1: "BUSY = 1, the current ERR, and a draw for KSV and NR" (R53); `d` is the draw, its
bits 11:8 and 1 stand for NR and KSV. The reserved bits read 0 (R45, log 5). -/
def State.statusBusy (s : State) (d : Word) : Word := statusLayout (d.extractLsb' 8 4) s.err (d.getLsbD 1) true

end Sys2Proof.Machine
end

