-- ==== Sys2Proof/Machine/Bus.lean ====
section
/-! DEFINITION. The register window (20_memory.md R42 to R57), the CMD write that fetches a command (R47), the host's events, and the order in which completions and events happen (R52, R61). -/

namespace Sys2Proof.Machine

/-- The registers of the window (R42). -/
inductive Reg where
  | ctrl
  | cmd
  | status
  | result
  | data (c : Fin 4)
  | key (k : Fin 8)
  | ksidx
  | ksdata
  /-- a word-aligned offset with no register: RAZ/WI (R45). -/
  | reserved
deriving DecidableEq, Repr

/-- The register at a word-aligned offset (R42). -/
def regAt (offset : BitVec 8) : Reg :=
  match offset with
  | 0x00#8 => .ctrl
  | 0x04#8 => .cmd
  | 0x08#8 => .status
  | 0x0C#8 => .result
  | 0x10#8 => .data 0
  | 0x14#8 => .data 1
  | 0x18#8 => .data 2
  | 0x1C#8 => .data 3
  | 0x20#8 => .key 0
  | 0x24#8 => .key 1
  | 0x28#8 => .key 2
  | 0x2C#8 => .key 3
  | 0x30#8 => .key 4
  | 0x34#8 => .key 5
  | 0x38#8 => .key 6
  | 0x3C#8 => .key 7
  | 0x40#8 => .ksidx
  | 0x44#8 => .ksdata
  | _ => .reserved

/-- The registers whose writes are dropped with Err(BUSY) while BUSY = 1: CTRL, CMD, DATA0..3, KEY0..7, KSIDX (R54). -/
def Reg.guarded : Reg → Bool
  | .ctrl | .cmd | .data _ | .key _ | .ksidx => true
  | .status | .result | .ksdata | .reserved => false

/-! ## Reads -/

/-- `BusRead(0x44)` with BUSY = 0 (R57). -/
def State.ksData (s : State) : Word :=
  if Config.ksReadable ∧ s.ksv ∧ s.ksidx.toNat < scheduleWords s.nr.toNat then ksWord s.ks s.ksidx.toNat else 0#32

/-- What a read returns with BUSY = 0 (R45 to R51, R55 to R57). -/
def State.readIdle (s : State) (r : Reg) : Word :=
  match r with
  | .ctrl => s.ksize.setWidth 32
  | .cmd => 0#32
  | .status => s.statusIdle
  | .result => s.result.setWidth 32
  | .data c => (s.st.col c).toWord
  | .key _ => 0#32
  | .ksidx => s.ksidx.setWidth 32
  | .ksdata => s.ksData
  | .reserved => 0#32

/-- What a read returns with BUSY = 1, `d` being the draw (R53). -/
def State.readBusy (s : State) (d : Word) (r : Reg) : Word :=
  match r with
  | .ctrl => s.ksize.setWidth 32
  | .cmd => 0#32
  | .status => s.statusBusy d
  | .result => d
  | .data _ => d
  | .key _ => 0#32
  | .ksidx => s.ksidx.setWidth 32
  | .ksdata => d
  | .reserved => 0#32

/-- A bus read. While `rst` is high it returns a draw (R250). It changes nothing but the reply and the count of draws
(R59: "Reads have no side effects"). -/
def busRead (r : Reg) (s : State) : State :=
  if s.rst then (s.reply s.draw).drawn
  else if s.busy then (s.reply (s.readBusy s.draw r)).drawn
  else s.reply (s.readIdle r)

/-! ## Writes -/

/-- A CMD write with BUSY = 0 (R47): decode the word and run the command, or record ILLEGAL (R74, R216). -/
def fetchCommand (v : Word) (s : State) : Result :=
  match decode v with
  | .ok i => exec i s
  | .error _ => .next (s.raise .illegal)

/-- A write with BUSY = 0 (R45 to R50, R55, R56). -/
def writeIdle (r : Reg) (v : Word) (s : State) : Result :=
  match r with
  | .ctrl => .next { s with ksize := v.extractLsb' 0 2 }
  | .cmd => fetchCommand v s
  | .status => .next s
  | .result => .next s
  | .data c => .next (s.setSt (s.st.setCol c (Column.ofWord v)))
  | .key k => .next { s with key := s.key.set k.val v k.isLt }
  | .ksidx => .next { s with ksidx := v.extractLsb' 0 6 }
  | .ksdata => .next s
  | .reserved => .next s

/-- A write with BUSY = 1 (R54): dropped, with Err(BUSY) if the register is guarded. -/
def writeBusy (r : Reg) (s : State) : State := if r.guarded then s.raise .busy else s

/-- A bus write. While `rst` is high it is "ignored without error" (R250). -/
def busWrite (r : Reg) (v : Word) (s : State) : Result :=
  if s.rst then .next s
  else if s.busy then .next (writeBusy r s)
  else writeIdle r v s

/-! ## Events -/

/-- `off[1:0] != 0` (R44). -/
def misaligned (offset : BitVec 8) : Bool := offset.extractLsb' 0 2 != 0#2

/-- One access of the host. Only aligned 32-bit accesses have a meaning (R43, R44).
DESIGN CHOICE (log 18): access control to the window, which R224 leaves to the platform, is no parameter of the model; every access
that reaches the core is one the platform let through. Safe. -/
def busAccess (a : Access) (s : State) : Result :=
  match a.width with
  | .byte => .refused .subWordAccess
  | .half => .refused .subWordAccess
  | .word =>
    if misaligned a.offset then .refused .misalignedAccess
    else
      match a.op with
      | .read => .next (busRead (regAt a.offset) s)
      | .write v => busWrite (regAt a.offset) v s

/-- One event of the host (R60, R250). -/
def hostEvent (e : HostEvent) (s : State) : Result :=
  match e with
  | .access a => busAccess a s
  | .otherHost _ => .refused .secondHost
  | .rst level => .next (s.sampleRst level)

/-- A host slot: the oldest event of the inbox, or nothing. -/
def hostSlot (s : State) : Result :=
  match s.inbox with
  | [] => .next s
  | e :: rest => hostEvent e { s with inbox := rest }

/-- One step of the core.
While `rst` is high every element is held at its reset value (R250).
A command whose time has come completes (R52).
A command whose time has not come leaves the slot to the host, and the idle core does so too. -/
def advance (s : State) : Result :=
  if s.rst then hostSlot s.cleared
  else
    match s.pend, s.countdown with
    | some c, 0 => exec c s
    | some _, n + 1 => hostSlot { s with countdown := n }
    | none, _ => hostSlot s

end Sys2Proof.Machine
end

