-- ==== Sys2Proof/Machine/Step.lean ====
section
/-! DEFINITION. step, the core's one step, and where a command word is placed for it to fetch. -/

namespace Sys2Proof.Machine

/-- One step of AESCORE. -/
def step (s : State) : Host.Outcome State Fault Refusal := advance s

/-- `s` with the host about to write the low `nbits` of `w` to CMD (20_memory.md R47), `rst` low and no command
running, so that the very next step fetches that word (log 15). -/
def State.withFetchWord (s : State) (nbits w : Nat) : State :=
  { s with
    rst := false
    pend := none
    inbox := .access ⟨0x04#8, .word, .write (BitVec.ofNat 32 (w % 2 ^ nbits))⟩ :: s.inbox }

end Sys2Proof.Machine
end

