-- ==== Sys2Proof/Safety.lean ====
section
/-! DEFINITION. The terms claims use: the host's accesses, when a step takes one, which commands a state admits, when a host's run is over, which commands write ST, and the invariant of a run. -/

namespace Sys2Proof.Machine

/-! ## The host's accesses -/

/-- `BusWrite(offset, v)` (00_scope.md R10). -/
abbrev writeEvent (offset : BitVec 8) (v : Word) : HostEvent := .access ⟨offset, .word, .write v⟩

/-- `BusRead(offset)` (00_scope.md R10). -/
abbrev readEvent (offset : BitVec 8) : HostEvent := .access ⟨offset, .word, .read⟩

/-- An access the bus defines: 32 bits wide, at an aligned offset, by the one host (20_memory.md R43, R44, R60). -/
def HostEvent.ordinary : HostEvent → Bool
  | .access a => decide (a.width = .word) && !misaligned a.offset
  | .otherHost _ => false
  | .rst _ => false

/-- An event the model gives a meaning: an ordinary access or a level of `rst`. -/
def HostEvent.meaningful : HostEvent → Bool
  | .access a => (HostEvent.access a).ordinary
  | .otherHost _ => false
  | .rst _ => true

/-! ## When a step takes an event -/

/-- Out of reset and idle, with `e` the host's next event. -/
abbrev State.IdleNext (s : State) (e : HostEvent) (rest : List HostEvent) : Prop :=
  s.rst = false ∧ s.pend = none ∧ s.inbox = e :: rest

/-- Out of reset and running `c` with `n + 1` host slots left, with `e` the host's next event. -/
abbrev State.RunningNext (s : State) (c : Instr) (n : Nat) (e : HostEvent) (rest : List HostEvent) : Prop :=
  s.rst = false ∧ s.pend = some c ∧ s.countdown = n + 1 ∧ s.inbox = e :: rest

/-- Command `c` is running and this step is its completion (20_memory.md R52). -/
abbrev State.Due (s : State) (c : Instr) : Prop := s.pend = some c ∧ s.countdown = 0

/-- Out of reset, no command runs and the host has nothing left to do. -/
abbrev State.Quiet (s : State) : Prop := s.rst = false ∧ s.pend = none ∧ s.inbox = []

/-! ## The end of a host's run (70_reset_and_hazards.md R264) -/

/-- The step from `s` to `t` takes the host's last access, it is a STATUS read, and it returns BUSY = 0. Nothing waits behind it, so
no bus write comes after it. Out of reset: a read while `rst` is high returns a draw and not the BUSY field (log 8).
DESIGN CHOICE (log 19): no event of any kind waits behind the read, so a level of `rst` queued there means that the run is not over,
where R264 speaks of accesses and bus writes only. Unsafe for a claim that nothing waits when a run is over. -/
def State.LastPoll (s t : State) : Prop :=
  s.rst = false ∧ s.inbox = [readEvent 0x08#8] ∧ step s = .next t ∧
  ∃ v : Word, t.replies = v :: s.replies ∧ v.getLsbD 0 = false

/-- The host program that waits in `start` is over in `final`: its last access was a STATUS read returning BUSY = 0. It does not say
that the commands were correct, that ERR is zero, or that any draw had a particular value. -/
def State.RunOver (start final : State) : Prop :=
  ∃ (k : Nat) (s : State), Host.Core.run Sys2Proof.core k start = .next s ∧ s.LastPoll final

/-- What a run that is over leaves: the register file as `BusRead` returns it, word k at offset 4k, and the internal KS. -/
structure FinalState where
  window : Vector Word 64
  ks : Vector Word 60
deriving DecidableEq, Repr

/-- The final state of a run that is over in `s`. -/
def State.final (s : State) : FinalState where
  window := Vector.ofFn fun k => s.readIdle (regAt (BitVec.ofNat 8 (4 * k.val)))
  ks := s.ks

/-- Every element of 10_state.md R34 holds its reset value (70_reset_and_hazards.md R250). -/
abbrev State.AtReset (s : State) : Prop :=
  s.st = Block.zero ∧ s.key = Vector.replicate 8 0#32 ∧ s.ks = Vector.replicate 60 0#32 ∧ s.ksv = false ∧ s.nr = 0#4 ∧
  s.ksize = 0#2 ∧ s.err = .none ∧ s.result = 0#8 ∧ s.ksidx = 0#6 ∧ s.pend = none ∧ s.rctr = 0#4

/-! ## Commands -/

/-- Every acceptance check of `c` passes (60_exceptions.md R213 to R215): KSIZE is not 3 for KEYEXP, a schedule is valid for a
command that reads round keys, and its round index is at most NR. -/
def State.admits (s : State) : Instr → Bool
  | .keyexp => decide (s.ksize ≠ 3#2)
  | .addrk i | .encrnd i | .encfin i | .decrnd i | .decfin i => s.ksv && decide (i ≤ s.nr.toNat)
  | .encblk | .decblk => s.ksv
  | .nop | .clrerr | .subb | .shrow | .mixcol | .isubb | .ishrow | .imixcol => true
  | .gfmul _ _ | .sbox _ | .isbox _ => true

/-! ## The invariant -/

/-- KSV, NR and KS agree: no schedule and everything zero, or a schedule of 10, 12 or 14 rounds with zero words above it
(10_state.md R24, R26, R28). -/
abbrev State.ScheduleOk (s : State) : Prop :=
  (s.ksv = false ∧ s.nr = 0#4 ∧ s.ks = Vector.replicate 60 0#32) ∨
  (s.ksv = true ∧ (s.nr = 10#4 ∨ s.nr = 12#4 ∨ s.nr = 14#4) ∧
    ∀ n : Fin 60, 4 * (s.nr.toNat + 1) ≤ n.val → s.ks[n] = 0#32)

/-- The running command is a command, and the state admits it: its checks passed at acceptance and nothing they read
has changed since (20_memory.md R52, R54). -/
abbrev State.PendOk (s : State) : Prop := (s.pend.all fun c => c.wellFormed && s.admits c) = true

/-- While `rst` is high every element holds its reset value (70_reset_and_hazards.md R250). -/
abbrev State.HeldInReset (s : State) : Prop := s.rst = true → s.cleared = s

/-- The invariant of a run. -/
abbrev State.Inv (s : State) : Prop := s.ScheduleOk ∧ s.PendOk ∧ s.HeldInReset

end Sys2Proof.Machine

/-! ## Groups of commands -/

namespace Sys2Proof

/-- The commands of 42_round_encrypt.md and 43_round_decrypt.md section 3: "Every command here writes ST only". -/
def Instr.writesSt : Instr → Bool
  | .addrk _ | .subb | .shrow | .mixcol | .encrnd _ | .encfin _ | .encblk => true
  | .isubb | .ishrow | .imixcol | .decrnd _ | .decfin _ | .decblk => true
  | .nop | .keyexp | .clrerr | .gfmul _ _ | .sbox _ | .isbox _ => false

/-- The round index of a round-keyed command: the form-R commands (30_encoding.md R71). -/
def Instr.roundIndex : Instr → Option Nat
  | .addrk i | .encrnd i | .encfin i | .decrnd i | .decfin i => some i
  | .nop | .keyexp | .clrerr | .subb | .shrow | .mixcol | .encblk => none
  | .isubb | .ishrow | .imixcol | .decblk => none
  | .gfmul _ _ | .sbox _ | .isbox _ => none

/-- The commands NOKEY names (60_exceptions.md R212): ADDRK, ENCRND, ENCFIN, ENCBLK, DECRND, DECFIN, DECBLK. -/
def Instr.readsRoundKeys : Instr → Bool
  | .addrk _ | .encrnd _ | .encfin _ | .encblk | .decrnd _ | .decfin _ | .decblk => true
  | .nop | .keyexp | .clrerr | .subb | .shrow | .mixcol | .isubb | .ishrow | .imixcol => false
  | .gfmul _ _ | .sbox _ | .isbox _ => false

end Sys2Proof
end

