-- ==== Sys2Proof/Certificates/Slice0/Obligations.lean ====
section
/-! DEFINITION. The statements about the model. Each docstring names the rule or section of spec/ it formalises. -/

open Sys2Proof Sys2Proof.Machine

/-! ## Encoding -/

/-- Words the spec writes out (30_encoding.md R70; examples of R107, R108, R109, R146, R150, R151, R179, R180, R200; illegal
words of 95_test_vectors.md V-SBOX, V-KE-ERR, V-ENC-ERR, V-DEC-ERR, V-CTL; the words of R147 to R149 and R176 to R178) decode
as it says. -/
def Obligations.SpecWordsDecodeAsListed : Prop :=
  decode 0x00000000#32 = .ok .nop ∧
  decode 0x00000001#32 = .ok .keyexp ∧
  decode 0x00000002#32 = .ok .clrerr ∧
  decode 0x00000A10#32 = .ok (.addrk 10) ∧
  decode 0x00000011#32 = .ok .subb ∧
  decode 0x00000012#32 = .ok .shrow ∧
  decode 0x00000013#32 = .ok .mixcol ∧
  decode 0x00000114#32 = .ok (.encrnd 1) ∧
  decode 0x00000A15#32 = .ok (.encfin 10) ∧
  decode 0x00000018#32 = .ok .encblk ∧
  decode 0x00000021#32 = .ok .isubb ∧
  decode 0x00000022#32 = .ok .ishrow ∧
  decode 0x00000023#32 = .ok .imixcol ∧
  decode 0x00000924#32 = .ok (.decrnd 9) ∧
  decode 0x00000025#32 = .ok (.decfin 0) ∧
  decode 0x00000028#32 = .ok .decblk ∧
  decode 0x83570030#32 = .ok (.gfmul 0x57#8 0x83#8) ∧
  decode 0x00530031#32 = .ok (.sbox 0x53#8) ∧
  decode 0x00ED0032#32 = .ok (.isbox 0xED#8) ∧
  decode 0x01530031#32 = .error .reservedBits ∧
  decode 0x00530131#32 = .error .reservedBits ∧
  decode 0x00000101#32 = .error .reservedBits ∧
  decode 0x00001010#32 = .error .reservedBits ∧
  decode 0x00000029#32 = .error .reservedOp ∧
  decode 0x000000FF#32 = .error .reservedOp

/-- Every well-formed command is read back from its word, with every operand at every value (30_encoding.md sections 1 and 2). -/
def Obligations.DecodeOfEncodeIsTheCommand : Prop :=
  ∀ i : Instr, i.WellFormed → decode (encode i) = .ok i

/-- The other direction: a word that decodes is the word of the command it decodes to, and that command is well formed
(30_encoding.md sections 1 and 2). -/
def Obligations.EncodeOfDecodeIsTheWord : Prop :=
  ∀ (v : Word) (i : Instr), decode v = .ok i → encode i = v ∧ i.WellFormed

/-- R74 and R216: a word decodes exactly when `(v & mask) == match` for a row; at most one row matches; the row that matches is
the decoded command's; every word decodes or is illegal; and a word that matches no row, written to the idle core, executes
`raise Err(ILLEGAL)` and changes nothing else. -/
def Obligations.DecodingSelectsTheMatchingRow : Prop :=
  (∀ v : Word, (∃ i, decode v = .ok i) ↔ ∃ row ∈ opcodeRows, v &&& row.1 = row.2) ∧
  (∀ v : Word, ∀ r₁ ∈ opcodeRows, ∀ r₂ ∈ opcodeRows, v &&& r₁.1 = r₁.2 → v &&& r₂.1 = r₂.2 → r₁ = r₂) ∧
  (∀ (v : Word) (i : Instr), decode v = .ok i →
    (i.form.mask, i.opcode.setWidth 32) ∈ opcodeRows ∧ v &&& i.form.mask = i.opcode.setWidth 32) ∧
  (∀ v : Word, (∃ i, decode v = .ok i) ∨ (∃ e, decode v = .error e)) ∧
  (∀ (s : State) (v : Word) (rest : List HostEvent), s.IdleNext (writeEvent 0x04#8 v) rest →
    (∀ row ∈ opcodeRows, v &&& row.1 ≠ row.2) →
    step s = .next { s with inbox := rest, err := if s.err = .none then .illegal else s.err })

/-- The operand fields of a decoded command are v[11:8], v[23:16] and v[31:24] (30_encoding.md section 1, operand assembly). -/
def Obligations.OperandsComeFromTheirFields : Prop :=
  ∀ v : Word,
    (∀ i n, decode v = .ok i → i.roundIndex = some n → n = (v.extractLsb' 8 4).toNat) ∧
    (∀ a b, decode v = .ok (.gfmul a b) → a = v.extractLsb' 16 8 ∧ b = v.extractLsb' 24 8) ∧
    (∀ a, decode v = .ok (.sbox a) → a = v.extractLsb' 16 8) ∧
    (∀ a, decode v = .ok (.isbox a) → a = v.extractLsb' 16 8)

/-! ## The step -/

/-- A CMD write taken by the idle core runs the command its word decodes to (20_memory.md section 2, CMD): the step is
`exec` of it once the write has left the inbox. -/
def Obligations.StepRunsTheDecodedCommand : Prop :=
  ∀ (s : State) (v : Word) (rest : List HostEvent) (i : Instr),
    s.IdleNext (writeEvent 0x04#8 v) rest → decode v = .ok i → step s = exec i { s with inbox := rest }

/-- What else a step can be (20_memory.md section 4; the countdown is the model's, log 2): the completion of a command whose
time has come, a slot of a running command without an event or with an ordinary access, and the quiet core.
The end of a run (70_reset_and_hazards.md section 4): a STATUS read taken by the idle core as the host's last access ends it; only
such a read does; a run that is over is idle, stays so, and has read BUSY = 0; and its final state is what reads return, and KS.
The model's choice: a read while `rst` is high ends no run (log 8), and nothing at all, no level of `rst` either, waits behind the
read that ends one (log 19). -/
def Obligations.StepCompletesOrIdles : Prop :=
  (∀ (s : State) (c : Instr), s.rst = false → s.Due c → step s = exec c s) ∧
  (∀ (s : State) (c : Instr) (n : Nat), s.rst = false → s.pend = some c → s.countdown = n + 1 → s.inbox = [] →
    step s = .next { s with countdown := n }) ∧
  (∀ (s : State) (c : Instr) (n : Nat) (e : HostEvent) (rest : List HostEvent), s.RunningNext c n e rest →
    e.ordinary = true → ∃ t, step s = .next t ∧ t.countdown = n ∧ t.pend = some c ∧ t.inbox = rest) ∧
  (∀ s : State, s.Quiet → step s = .next s) ∧
  (∀ s : State, s.IdleNext (readEvent 0x08#8) [] → ∃ t, s.LastPoll t) ∧
  (∀ s t : State, s.LastPoll t →
    s.pend = none ∧ t.Quiet ∧ t = { s with inbox := [], replies := s.statusIdle :: s.replies } ∧ t.final = s.final) ∧
  (∀ start t : State, start.RunOver t → t.Quiet ∧ step t = .next t) ∧
  (∀ (t u : State) (k : Fin 64), t.Quiet →
    step { t with inbox := [readEvent (BitVec.ofNat 8 (4 * k.val))] } = .next u →
    u.replies = t.final.window[k] :: t.replies ∧ u.final = t.final ∧ t.final.ks = t.ks)

/-- The core never stops by itself; a step is refused exactly when it would take a sub-word, misaligned or second-host access,
and by the name of that reason (60_exceptions.md section 1; 20_memory.md sections 2 and 7). The first clause says that nothing else
is refused, the second that each of these is. The model's choice (log 9): an access that is both sub-word and misaligned is
refused as sub-word, and all three are refused also while BUSY = 1 and while `rst` is high. -/
def Obligations.StepStopsOnlyOnMeaninglessAccesses : Prop :=
  (∀ s : State,
    (∃ t, step s = .next t) ∨
    (∃ e rest, s.inbox = e :: rest ∧ e.meaningful = false ∧
      (s.rst = true ∨ s.pend = none ∨ s.countdown ≠ 0) ∧
      ((∃ a, e = .otherHost a ∧ step s = .refused .secondHost) ∨
       (∃ a, e = .access a ∧ a.width ≠ .word ∧ step s = .refused .subWordAccess) ∨
       (∃ a, e = .access a ∧ a.width = .word ∧ a.offset.extractLsb' 0 2 ≠ 0#2 ∧
          step s = .refused .misalignedAccess)))) ∧
  (∀ (s : State) (e : HostEvent) (rest : List HostEvent), s.inbox = e :: rest →
    s.rst = true ∨ s.pend = none ∨ s.countdown ≠ 0 →
    (∀ a, e = .otherHost a → step s = .refused .secondHost) ∧
    (∀ a, e = .access a → a.width ≠ .word → step s = .refused .subWordAccess) ∧
    (∀ a, e = .access a → a.width = .word → a.offset.extractLsb' 0 2 ≠ 0#2 → step s = .refused .misalignedAccess))

/-- 20_memory.md section 2, access widths and alignment: the model refuses an access that is not 32 bits wide, and one with
`off[1:0] != 0`, with no step. The model's choice (log 9): the names, the sub-word one first where both hold, and that they are
refused also while BUSY = 1 and while `rst` is high. -/
def Obligations.SubWordAndMisalignedAccessesAreRefused : Prop :=
  (∀ (s : State) (a : Access) (rest : List HostEvent),
    s.pend = none ∨ s.countdown ≠ 0 ∨ s.rst = true → s.inbox = .access a :: rest → a.width ≠ .word →
    step s = .refused .subWordAccess) ∧
  (∀ (s : State) (a : Access) (rest : List HostEvent),
    s.pend = none ∨ s.countdown ≠ 0 ∨ s.rst = true → s.inbox = .access a :: rest → a.width = .word →
    a.offset.extractLsb' 0 2 ≠ 0#2 → step s = .refused .misalignedAccess)

/-! ## Errors -/

/-- R211: `raise Err(code)` records the code if ERR = 0 and changes nothing else, so a later error is lost; and commands
execute alike whatever ERR is: two states that differ only in ERR give states that differ at most in ERR and in the
model's countdown (log 2, left open here); and no step changes a recorded error but the completion of CLRERR and reset. -/
def Obligations.RaiseRecordsTheFirstErrorOnly : Prop :=
  (∀ (s : State) (code : ErrCode), s.raise code = { s with err := if s.err = .none then code else s.err }) ∧
  (∀ (s : State) (first second : ErrCode), s.err = .none → first ≠ .none → ((s.raise first).raise second).err = first) ∧
  (∀ (s : State) (c : Instr) (e : ErrCode), ∃ t u, exec c s = .next t ∧ exec c { s with err := e } = .next u ∧
    { u with err := t.err, countdown := t.countdown } = t) ∧
  (∀ s t : State, step s = .next t → s.err ≠ .none →
    t.err = s.err ∨ (s.rst = false ∧ s.Due .clrerr) ∨ s.rst = true ∨ (∃ rest, s.inbox = .rst true :: rest))

/-- R213: KEYEXP presented with KSIZE = 3 raises CONFIG; KS, KSV and NR are unchanged, and so is all else. -/
def Obligations.KeyexpWithReservedSizeRaisesConfig : Prop :=
  ∀ s : State, s.pend = none → s.ksize = 3#2 →
    exec .keyexp s = .next { s with err := if s.err = .none then .config else s.err }

/-- R214: a command that reads round keys, presented while KSV = 0, raises NOKEY and does nothing else; after reset
KSV = 0. -/
def Obligations.RoundKeyCommandsWithoutScheduleRaiseNokey : Prop :=
  State.reset.ksv = false ∧
  ∀ (c : Instr) (s : State), c.readsRoundKeys = true → s.pend = none → s.ksv = false →
    exec c s = .next { s with err := if s.err = .none then .nokey else s.err }

/-- R215: ADDRK, ENCRND, ENCFIN, DECRND and DECFIN raise RANGE when KSV = 1 and `CMD.RND > NR`, and do nothing else. -/
def Obligations.RoundIndexAboveNrRaisesRange : Prop :=
  ∀ (c : Instr) (i : Nat) (s : State), c.roundIndex = some i → s.pend = none → s.ksv = true → s.nr.toNat < i →
    exec c s = .next { s with err := if s.err = .none then .range else s.err }

/-- R220: a CMD write that raises ILLEGAL, CONFIG, NOKEY or RANGE is not accepted: BUSY stays 0, PEND none, and only ERR may
change. -/
def Obligations.ErroringCommandChangesOnlyErr : Prop :=
  ∀ (s : State) (v : Word) (rest : List HostEvent), s.IdleNext (writeEvent 0x04#8 v) rest →
    (∀ i, decode v = .ok i → s.admits i = false) →
    ∃ t, step s = .next t ∧ t.busy = false ∧ t.pend = none ∧ t.st = s.st ∧ t.ks = s.ks ∧ t.ksv = s.ksv ∧
      t.nr = s.nr ∧ t.key = s.key ∧ t.ksize = s.ksize ∧ t.result = s.result ∧ t.ksidx = s.ksidx ∧
      t.rctr = s.rctr ∧ t.replies = s.replies ∧
      (s.err ≠ .none → t.err = s.err) ∧
      (s.err = .none → t.err = .illegal ∨ t.err = .config ∨ t.err = .nokey ∨ t.err = .range)

/-- The order of the checks (60_exceptions.md section 2, priority): the error recorded by a command presented to the idle
core with ERR = 0 is CONFIG, else NOKEY, else RANGE, by the first check that fails, and none if it is accepted. -/
def Obligations.FirstFailingCheckDecides : Prop :=
  ∀ (c : Instr) (s : State), s.pend = none → s.err = .none → ∃ t, exec c s = .next t ∧
    t.err = (if c = .keyexp ∧ s.ksize = 3#2 then .config
      else if c.readsRoundKeys = true ∧ s.ksv = false then .nokey
      else if (∃ i, c.roundIndex = some i ∧ s.nr.toNat < i) then .range
      else .none) ∧
    (t.err = .none → t.pend = some c) ∧ (t.err ≠ .none → t.pend = none)

/-- R54 and R217: with BUSY = 1, a write to CTRL, CMD, DATA0..3, KEY0..7 or KSIDX is dropped and raises BUSY; a write to any
other aligned offset is ignored without error, and writes to those offsets (STATUS, RESULT, KSDATA, RAZ/WI) are ignored when idle
too. What becomes of the model's countdown (log 2) is left open here. -/
def Obligations.WritesWhileBusyAreDropped : Prop :=
  (∀ (s : State) (c : Instr) (n : Nat) (offset : BitVec 8) (v : Word) (rest : List HostEvent),
    s.RunningNext c n (writeEvent offset v) rest → offset.extractLsb' 0 2 = 0#2 → ∃ m,
    step s = .next { s with
      inbox := rest
      countdown := m
      err := if (offset = 0x00#8 ∨ offset = 0x04#8 ∨ (0x10#8 ≤ offset ∧ offset ≤ 0x3C#8) ∨ offset = 0x40#8) ∧ s.err = .none
        then .busy else s.err }) ∧
  (∀ (s : State) (offset : BitVec 8) (v : Word) (rest : List HostEvent), s.IdleNext (writeEvent offset v) rest →
    offset.extractLsb' 0 2 = 0#2 → offset = 0x08#8 ∨ offset = 0x0C#8 ∨ offset = 0x44#8 ∨ 0x48#8 ≤ offset →
    step s = .next { s with inbox := rest })

/-! ## Acceptance -/

/-- Every command whose checks pass is accepted by the idle core (20_memory.md sections 2 and 4): BUSY = 1 and PEND is the
command, nothing else of the spec's state changes; the latency drawn is a free value of the command and the state
(log 2). -/
def Obligations.AdmittedCommandIsAccepted : Prop :=
  ∀ (c : Instr) (s : State), s.pend = none → s.admits c = true →
    exec c s = .next { s with pend := some c, countdown := Config.latency c s, draws := s.draws + 1 }

/-! ## Completion of each command -/

/-- NOP completes with no other change; CLRERR completes with ERR = 0 (44_control.md). -/
def Obligations.NopAndClrerrComplete : Prop :=
  (∀ s : State, s.Due .nop → exec .nop s = .next { s with pend := none }) ∧
  (∀ s : State, s.Due .clrerr → exec .clrerr s = .next { s with err := .none, pend := none })

/-- KEYEXP completes (41_key_expansion.md section 3): `KS[i]` is word i of `Expand(KEY[0..Nk-1], Nk, Nr)` below `4*(Nr+1)` and 0
above, NR is Nr, KSV is 1, for the Nk and Nr of KSIZE, and nothing else changes. -/
def Obligations.KeyexpCompletes : Prop :=
  ∀ (s : State) (nk nr : Nat), s.Due .keyexp →
    (s.ksize = 0#2 ∧ nk = 4 ∧ nr = 10) ∨ (s.ksize = 1#2 ∧ nk = 6 ∧ nr = 12) ∨ (s.ksize = 2#2 ∧ nk = 8 ∧ nr = 14) →
    ∃ ram : Vector Word 60,
      exec .keyexp s = .next { s with ks := ram, nr := BitVec.ofNat 4 nr, ksv := true, pend := none } ∧
      ∀ i : Fin 60, ram[i] = if i.val < 4 * (nr + 1) then (expand (s.key.toList.take nk) nk nr).getD i.val 0#32 else 0#32

/-- ADDRK completes: `ST[r][c]` becomes `ST[r][c] ^ Wbyte(KS[4i+c], r)`, nothing else changes (42_round_encrypt.md sections 1
and 3, ADDRK). -/
def Obligations.AddrkCompletes : Prop :=
  ∀ (i : Nat) (s : State), s.Due (.addrk i) →
    exec (.addrk i) s = .next { s with
      st := Block.ofFn fun r c => s.st.get r c ^^^ (ksWord s.ks (4 * i + c.val)).extractLsb' (24 - 8 * r.val) 8
      pend := none }

/-- SUBB and ISUBB complete: every byte goes through its S-box, nothing else changes (42_round_encrypt.md section 3, SUBB;
43_round_decrypt.md section 3, ISUBB). -/
def Obligations.SubstitutionCommandsComplete : Prop :=
  (∀ s : State, s.Due .subb →
    exec .subb s = .next { s with st := Block.ofFn fun r c => subByte (s.st.get r c), pend := none }) ∧
  (∀ s : State, s.Due .isubb →
    exec .isubb s = .next { s with st := Block.ofFn fun r c => invSubByte (s.st.get r c), pend := none })

/-- SHROW and ISHROW complete: row r is rotated left, respectively right, by r positions, nothing else changes
(42_round_encrypt.md section 3, SHROW; 43_round_decrypt.md section 3, ISHROW). -/
def Obligations.RowCommandsComplete : Prop :=
  (∀ s : State, s.Due .shrow → ∃ S : Block, exec .shrow s = .next { s with st := S, pend := none } ∧
    (∀ c, S.get 0 c = s.st.get 0 c) ∧
    (S.get 1 0 = s.st.get 1 1 ∧ S.get 1 1 = s.st.get 1 2 ∧ S.get 1 2 = s.st.get 1 3 ∧ S.get 1 3 = s.st.get 1 0) ∧
    (S.get 2 0 = s.st.get 2 2 ∧ S.get 2 1 = s.st.get 2 3 ∧ S.get 2 2 = s.st.get 2 0 ∧ S.get 2 3 = s.st.get 2 1) ∧
    (S.get 3 0 = s.st.get 3 3 ∧ S.get 3 1 = s.st.get 3 0 ∧ S.get 3 2 = s.st.get 3 1 ∧ S.get 3 3 = s.st.get 3 2)) ∧
  (∀ s : State, s.Due .ishrow → ∃ S : Block, exec .ishrow s = .next { s with st := S, pend := none } ∧
    (∀ c, S.get 0 c = s.st.get 0 c) ∧
    (S.get 1 0 = s.st.get 1 3 ∧ S.get 1 1 = s.st.get 1 0 ∧ S.get 1 2 = s.st.get 1 1 ∧ S.get 1 3 = s.st.get 1 2) ∧
    (S.get 2 0 = s.st.get 2 2 ∧ S.get 2 1 = s.st.get 2 3 ∧ S.get 2 2 = s.st.get 2 0 ∧ S.get 2 3 = s.st.get 2 1) ∧
    (S.get 3 0 = s.st.get 3 1 ∧ S.get 3 1 = s.st.get 3 2 ∧ S.get 3 2 = s.st.get 3 3 ∧ S.get 3 3 = s.st.get 3 0))

/-- MIXCOL and IMIXCOL complete: every column is multiplied by the matrix M, respectively IM, nothing else changes
(42_round_encrypt.md section 3, MIXCOL; 43_round_decrypt.md section 3, IMIXCOL). -/
def Obligations.ColumnCommandsComplete : Prop :=
  (∀ s : State, s.Due .mixcol → ∃ S : Block, exec .mixcol s = .next { s with st := S, pend := none } ∧
    ∀ c,
      S.get 0 c = gmul 2 (s.st.get 0 c) ^^^ gmul 3 (s.st.get 1 c) ^^^ s.st.get 2 c ^^^ s.st.get 3 c ∧
      S.get 1 c = s.st.get 0 c ^^^ gmul 2 (s.st.get 1 c) ^^^ gmul 3 (s.st.get 2 c) ^^^ s.st.get 3 c ∧
      S.get 2 c = s.st.get 0 c ^^^ s.st.get 1 c ^^^ gmul 2 (s.st.get 2 c) ^^^ gmul 3 (s.st.get 3 c) ∧
      S.get 3 c = gmul 3 (s.st.get 0 c) ^^^ s.st.get 1 c ^^^ s.st.get 2 c ^^^ gmul 2 (s.st.get 3 c)) ∧
  (∀ s : State, s.Due .imixcol → ∃ S : Block, exec .imixcol s = .next { s with st := S, pend := none } ∧
    ∀ c,
      S.get 0 c = gmul 0x0E (s.st.get 0 c) ^^^ gmul 0x0B (s.st.get 1 c) ^^^ gmul 0x0D (s.st.get 2 c) ^^^ gmul 0x09 (s.st.get 3 c) ∧
      S.get 1 c = gmul 0x09 (s.st.get 0 c) ^^^ gmul 0x0E (s.st.get 1 c) ^^^ gmul 0x0B (s.st.get 2 c) ^^^ gmul 0x0D (s.st.get 3 c) ∧
      S.get 2 c = gmul 0x0D (s.st.get 0 c) ^^^ gmul 0x09 (s.st.get 1 c) ^^^ gmul 0x0E (s.st.get 2 c) ^^^ gmul 0x0B (s.st.get 3 c) ∧
      S.get 3 c = gmul 0x0B (s.st.get 0 c) ^^^ gmul 0x0D (s.st.get 1 c) ^^^ gmul 0x09 (s.st.get 2 c) ^^^ gmul 0x0E (s.st.get 3 c))

/-- ENCRND i and ENCFIN i complete with EncRound and EncFinal, spelled as their steps, and nothing else changes
(42_round_encrypt.md section 3, ENCRND and ENCFIN). -/
def Obligations.EncryptionRoundsComplete : Prop :=
  (∀ (i : Nat) (s : State), s.Due (.encrnd i) →
    exec (.encrnd i) s = .next { s with
      st := addRoundKey (mixColumns (shiftRows (subBytes s.st))) (roundKey s.ks i), pend := none }) ∧
  (∀ (i : Nat) (s : State), s.Due (.encfin i) →
    exec (.encfin i) s = .next { s with
      st := addRoundKey (shiftRows (subBytes s.st)) (roundKey s.ks i), pend := none })

/-- DECRND i and DECFIN i complete with DecRound and DecFinal, spelled as their steps (AddRoundKey before InvMixColumns), and
nothing else changes (43_round_decrypt.md section 3, DECRND and DECFIN; 90_conflicts.md C3). -/
def Obligations.DecryptionRoundsComplete : Prop :=
  (∀ (i : Nat) (s : State), s.Due (.decrnd i) →
    exec (.decrnd i) s = .next { s with
      st := invMixColumns (addRoundKey (invSubBytes (invShiftRows s.st)) (roundKey s.ks i)), pend := none }) ∧
  (∀ (i : Nat) (s : State), s.Due (.decfin i) →
    exec (.decfin i) s = .next { s with
      st := addRoundKey (invSubBytes (invShiftRows s.st)) (roundKey s.ks i), pend := none })

/-- ENCBLK and DECBLK complete with Cipher and InvCipher of ST for the NR rounds of the schedule; the hidden RCTR apart (log 6)
nothing else changes (42_round_encrypt.md section 3, ENCBLK; 43_round_decrypt.md section 3, DECBLK). -/
def Obligations.BlockCommandsComplete : Prop :=
  (∀ s : State, s.Due .encblk → ∃ q : BitVec 4,
    exec .encblk s = .next { s with st := cipher s.ks s.nr.toNat s.st, rctr := q, pend := none }) ∧
  (∀ s : State, s.Due .decblk → ∃ q : BitVec 4,
    exec .decblk s = .next { s with st := invCipher s.ks s.nr.toNat s.st, rctr := q, pend := none })

/-- GFMUL, SBOX and ISBOX complete with their byte in RESULT, and nothing else changes (40_field_sbox.md section 3). -/
def Obligations.ScalarCommandsComplete : Prop :=
  (∀ (a b : Byte) (s : State), s.Due (.gfmul a b) →
    exec (.gfmul a b) s = .next { s with result := gmul a b, pend := none }) ∧
  (∀ (a : Byte) (s : State), s.Due (.sbox a) →
    exec (.sbox a) s = .next { s with result := subByte a, pend := none }) ∧
  (∀ (a : Byte) (s : State), s.Due (.isbox a) →
    exec (.isbox a) s = .next { s with result := invSubByte a, pend := none })

/-! ## Frames -/

/-- The frame of ADDRK, SUBB, SHROW, MIXCOL, ENCRND, ENCFIN, ENCBLK, ISUBB, ISHROW, IMIXCOL, DECRND, DECFIN and DECBLK, whatever
becomes of them (42_round_encrypt.md and 43_round_decrypt.md section 3, "Every command here writes ST only"): KEY, KS, KSV, NR,
KSIZE, RESULT, KSIDX, the reset input and the host's side are unchanged; ST changes only at completion, ERR only by an error
recorded over NONE, and the hidden RCTR only by ENCBLK and DECBLK. -/
def Obligations.StateCommandsWriteStOnly : Prop :=
  ∀ (c : Instr) (s t : State), c.writesSt = true → exec c s = .next t →
    t.key = s.key ∧ t.ks = s.ks ∧ t.ksv = s.ksv ∧ t.nr = s.nr ∧ t.ksize = s.ksize ∧ t.result = s.result ∧
    t.ksidx = s.ksidx ∧ t.rst = s.rst ∧ t.inbox = s.inbox ∧ t.replies = s.replies ∧
    (t.st = s.st ∨ s.Due c) ∧
    (t.err = s.err ∨ (s.err = .none ∧ ¬ s.Due c ∧ (t.err = .busy ∨ t.err = .nokey ∨ t.err = .range))) ∧
    (t.rctr = s.rctr ∨ c = .encblk ∨ c = .decblk)

/-- The frame of GFMUL, SBOX and ISBOX (40_field_sbox.md section 3, "Each writes only RESULT"): ST, KEY, KS, KSV, NR, KSIZE,
KSIDX, RCTR, the reset input and the host's side are unchanged; RESULT changes only at completion, ERR only by BUSY. -/
def Obligations.ScalarCommandsWriteResultOnly : Prop :=
  ∀ (c : Instr) (s t : State), ((∃ a b, c = .gfmul a b) ∨ (∃ a, c = .sbox a) ∨ (∃ a, c = .isbox a)) → exec c s = .next t →
    t.st = s.st ∧ t.key = s.key ∧ t.ks = s.ks ∧ t.ksv = s.ksv ∧ t.nr = s.nr ∧ t.ksize = s.ksize ∧
    t.ksidx = s.ksidx ∧ t.rctr = s.rctr ∧ t.rst = s.rst ∧ t.inbox = s.inbox ∧ t.replies = s.replies ∧
    (t.result = s.result ∨ s.Due c) ∧
    (t.err = s.err ∨ (s.err = .none ∧ ¬ s.Due c ∧ t.err = .busy))

/-- The frame of NOP, CLRERR and KEYEXP (44_control.md; 41_key_expansion.md section 3): ST, KEY, KSIZE, RESULT, KSIDX, RCTR, the
reset input and the host's side are unchanged; KS, KSV and NR change only when KEYEXP completes; ERR changes only by CLRERR's
completion, by BUSY, or by KEYEXP's CONFIG. -/
def Obligations.ControlCommandsLeaveTheDatapath : Prop :=
  ∀ (c : Instr) (s t : State), (c = .nop ∨ c = .clrerr ∨ c = .keyexp) → exec c s = .next t →
    t.st = s.st ∧ t.key = s.key ∧ t.ksize = s.ksize ∧ t.result = s.result ∧ t.ksidx = s.ksidx ∧ t.rctr = s.rctr ∧
    t.rst = s.rst ∧ t.inbox = s.inbox ∧ t.replies = s.replies ∧
    ((t.ks = s.ks ∧ t.ksv = s.ksv ∧ t.nr = s.nr) ∨ (c = .keyexp ∧ s.Due .keyexp)) ∧
    (t.err = s.err ∨ (c = .clrerr ∧ s.Due .clrerr ∧ t.err = .none) ∨
      (s.err = .none ∧ ¬ s.Due c ∧ (t.err = .busy ∨ (c = .keyexp ∧ t.err = .config))))

/-! ## The register window -/

/-- R46: a CTRL write with BUSY = 0 sets KSIZE to v[1:0] and has no other effect; a CTRL read returns KSIZE zero-extended, with
BUSY = 0 and with BUSY = 1. -/
def Obligations.CtrlHoldsTheKeySize : Prop :=
  (∀ (s : State) (v : Word) (rest : List HostEvent), s.IdleNext (writeEvent 0x00#8 v) rest →
    step s = .next { s with inbox := rest, ksize := v.extractLsb' 0 2 }) ∧
  (∀ (s : State) (rest : List HostEvent), s.IdleNext (readEvent 0x00#8) rest →
    step s = .next { s with inbox := rest, replies := s.ksize.setWidth 32 :: s.replies }) ∧
  (∀ (s : State) (c : Instr) (n : Nat) (rest : List HostEvent), s.RunningNext c n (readEvent 0x00#8) rest →
    ∃ t, step s = .next t ∧ t.replies = s.ksize.setWidth 32 :: s.replies)

/-- R56: a KSIDX write with BUSY = 0 sets IDX to v[5:0]; a KSIDX read returns IDX zero-extended, with BUSY = 0 and with
BUSY = 1. -/
def Obligations.KsidxHoldsTheWindowIndex : Prop :=
  (∀ (s : State) (v : Word) (rest : List HostEvent), s.IdleNext (writeEvent 0x40#8 v) rest →
    step s = .next { s with inbox := rest, ksidx := v.extractLsb' 0 6 }) ∧
  (∀ (s : State) (rest : List HostEvent), s.IdleNext (readEvent 0x40#8) rest →
    step s = .next { s with inbox := rest, replies := s.ksidx.setWidth 32 :: s.replies }) ∧
  (∀ (s : State) (c : Instr) (n : Nat) (rest : List HostEvent), s.RunningNext c n (readEvent 0x40#8) rest →
    ∃ t, step s = .next t ∧ t.replies = s.ksidx.setWidth 32 :: s.replies)

/-- R55: a KEY write with BUSY = 0 sets `KEY[k]` and changes nothing else (KS, KSV and NR among it); a KEY read returns 0, with
BUSY = 0 and with BUSY = 1. -/
def Obligations.KeyIsWriteOnly : Prop :=
  (∀ (k : Fin 8) (s : State) (v : Word) (rest : List HostEvent),
    s.IdleNext (writeEvent (BitVec.ofNat 8 (0x20 + 4 * k.val)) v) rest →
    step s = .next { s with inbox := rest, key := s.key.set k.val v k.isLt }) ∧
  (∀ (k : Fin 8) (s : State) (rest : List HostEvent),
    s.IdleNext (readEvent (BitVec.ofNat 8 (0x20 + 4 * k.val))) rest →
    step s = .next { s with inbox := rest, replies := 0#32 :: s.replies }) ∧
  (∀ (k : Fin 8) (s : State) (c : Instr) (n : Nat) (rest : List HostEvent),
    s.RunningNext c n (readEvent (BitVec.ofNat 8 (0x20 + 4 * k.val))) rest →
    ∃ t, step s = .next t ∧ t.replies = 0#32 :: s.replies)

/-- R50: a DATA write with BUSY = 0 sets `ST[r][c]` to v[31-8r : 24-8r] for every row r of its column and leaves the other columns
and all else. -/
def Obligations.DataWriteLoadsItsColumn : Prop :=
  ∀ (c : Fin 4) (s : State) (v : Word) (rest : List HostEvent),
    s.IdleNext (writeEvent (BitVec.ofNat 8 (0x10 + 4 * c.val)) v) rest →
    ∃ S : Block, step s = .next { s with inbox := rest, st := S } ∧
      (∀ r : Fin 4, S.get r c = v.extractLsb' (24 - 8 * r.val) 8) ∧
      (∀ r d : Fin 4, d ≠ c → S.get r d = s.st.get r d)

/-- 20_memory.md section 3, loader (the four-write result is an inference the spec marks as its own): writing DATA0..3 with the
block's bytes, each word packed with its lowest-numbered byte first, gives `ST[r][c] = b[r + 4c]`. -/
def Obligations.LoaderIsColumnMajor : Prop :=
  ∀ (b : Fin 16 → Byte) (s : State) (rest : List HostEvent), s.rst = false → s.pend = none →
    s.inbox =
      writeEvent 0x10#8 (b 0 ++ b 1 ++ b 2 ++ b 3) :: writeEvent 0x14#8 (b 4 ++ b 5 ++ b 6 ++ b 7) ::
      writeEvent 0x18#8 (b 8 ++ b 9 ++ b 10 ++ b 11) :: writeEvent 0x1C#8 (b 12 ++ b 13 ++ b 14 ++ b 15) :: rest →
    ∃ S : Block, Host.Core.run Sys2Proof.core 4 s = .next { s with inbox := rest, st := S } ∧
      ∀ r c : Fin 4, S.get r c = b ⟨r.val + 4 * c.val, by omega⟩

/-- R51: a DATA read with BUSY = 0 returns `{ST[0][c], ST[1][c], ST[2][c], ST[3][c]}` and changes nothing else. -/
def Obligations.UnloaderIsColumnMajor : Prop :=
  ∀ (c : Fin 4) (s : State) (rest : List HostEvent),
    s.IdleNext (readEvent (BitVec.ofNat 8 (0x10 + 4 * c.val))) rest →
    step s = .next { s with
      inbox := rest
      replies := (s.st.get 0 c ++ s.st.get 1 c ++ s.st.get 2 c ++ s.st.get 3 c) :: s.replies }

/-- R48: a STATUS read with BUSY = 0 returns `{20'b0, NR, 1'b0, ERR, 2'b0, KSV, BUSY}`; STATUS writes are ignored, with BUSY = 0 and
with BUSY = 1. The ERR field holds the code that the table of 60_exceptions.md R212 gives the error. -/
def Obligations.StatusReadsItsFields : Prop :=
  (ErrCode.none.code = 0#3 ∧ ErrCode.config.code = 1#3 ∧ ErrCode.nokey.code = 2#3 ∧ ErrCode.range.code = 3#3 ∧
    ErrCode.illegal.code = 4#3 ∧ ErrCode.busy.code = 5#3) ∧
  (∀ (s : State) (rest : List HostEvent), s.IdleNext (readEvent 0x08#8) rest →
    step s = .next { s with
      inbox := rest
      replies := (0#20 ++ s.nr ++ 0#1 ++ s.err.code ++ 0#2 ++ BitVec.ofBool s.ksv ++ 0#1) :: s.replies }) ∧
  (∀ (s : State) (v : Word) (rest : List HostEvent), s.IdleNext (writeEvent 0x08#8 v) rest →
    step s = .next { s with inbox := rest }) ∧
  (∀ (s : State) (c : Instr) (n : Nat) (v : Word) (rest : List HostEvent), s.RunningNext c n (writeEvent 0x08#8 v) rest →
    ∃ m, step s = .next { s with inbox := rest, countdown := m })

/-- R49: a RESULT read with BUSY = 0 returns VAL zero-extended; RESULT writes are ignored, with BUSY = 0 and with BUSY = 1. -/
def Obligations.ResultReadsItsByte : Prop :=
  (∀ (s : State) (rest : List HostEvent), s.IdleNext (readEvent 0x0C#8) rest →
    step s = .next { s with inbox := rest, replies := s.result.setWidth 32 :: s.replies }) ∧
  (∀ (s : State) (v : Word) (rest : List HostEvent), s.IdleNext (writeEvent 0x0C#8 v) rest →
    step s = .next { s with inbox := rest }) ∧
  (∀ (s : State) (c : Instr) (n : Nat) (v : Word) (rest : List HostEvent), s.RunningNext c n (writeEvent 0x0C#8 v) rest →
    ∃ m, step s = .next { s with inbox := rest, countdown := m })

/-- R57: a KSDATA read with BUSY = 0 returns `KS[IDX]` if KS_READABLE, KSV = 1 and IDX < 4*(NR+1), else 0, and changes nothing
else. -/
def Obligations.KsdataReadsTheScheduleWhenReadable : Prop :=
  ∀ (s : State) (rest : List HostEvent), s.IdleNext (readEvent 0x44#8) rest →
    step s = .next { s with
      inbox := rest
      replies := (if Config.ksReadable = true ∧ s.ksv = true ∧ s.ksidx.toNat < 4 * (s.nr.toNat + 1)
        then ksWord s.ks s.ksidx.toNat else 0#32) :: s.replies }

/-- R53: reads with BUSY = 1. STATUS returns BUSY = 1, the current ERR and a draw for KSV and NR; DATA, RESULT and KSDATA return a
draw; CTRL and KSIDX their current values; CMD and KEY 0. A draw is the free value `Config.drawWord` of the state that
reads (log 3), and nothing but the reply, that count and the model's countdown (log 2, left open here) changes. -/
def Obligations.ReadsWhileBusy : Prop :=
  ∀ (s : State) (c : Instr) (n : Nat) (offset : BitVec 8) (rest : List HostEvent),
    s.RunningNext c n (readEvent offset) rest → offset.extractLsb' 0 2 = 0#2 →
    ∃ (v d : Word) (m : Nat), d = Config.drawWord { s with inbox := rest, countdown := m } ∧
      step s = .next { s with inbox := rest, countdown := m, draws := s.draws + 1, replies := v :: s.replies } ∧
      (offset = 0x08#8 → v.getLsbD 0 = true ∧ v.extractLsb' 4 3 = s.err.code ∧
        v.getLsbD 1 = d.getLsbD 1 ∧ v.extractLsb' 8 4 = d.extractLsb' 8 4) ∧
      (offset = 0x10#8 ∨ offset = 0x14#8 ∨ offset = 0x18#8 ∨ offset = 0x1C#8 ∨ offset = 0x0C#8 ∨ offset = 0x44#8 →
        v = d) ∧
      (offset = 0x00#8 → v = s.ksize.setWidth 32) ∧
      (offset = 0x40#8 → v = s.ksidx.setWidth 32) ∧
      (offset = 0x04#8 ∨ (0x20#8 ≤ offset ∧ offset ≤ 0x3C#8) → v = 0#32)

/-- CMD reads return 0, and the offsets 0x48..0xFC read 0 and ignore writes, with BUSY = 0 and with BUSY = 1 (20_memory.md section 2,
CMD and RAZ/WI, and section 4). What becomes of the model's countdown (log 2) is left open here. -/
def Obligations.ReservedOffsetsReadZeroAndIgnoreWrites : Prop :=
  (∀ (s : State) (offset : BitVec 8) (rest : List HostEvent), s.IdleNext (readEvent offset) rest →
    offset.extractLsb' 0 2 = 0#2 → offset = 0x04#8 ∨ 0x48#8 ≤ offset →
    step s = .next { s with inbox := rest, replies := 0#32 :: s.replies }) ∧
  (∀ (s : State) (offset : BitVec 8) (v : Word) (rest : List HostEvent), s.IdleNext (writeEvent offset v) rest →
    offset.extractLsb' 0 2 = 0#2 → 0x48#8 ≤ offset → step s = .next { s with inbox := rest }) ∧
  (∀ (s : State) (c : Instr) (n : Nat) (offset : BitVec 8) (rest : List HostEvent),
    s.RunningNext c n (readEvent offset) rest → offset.extractLsb' 0 2 = 0#2 → offset = 0x04#8 ∨ 0x48#8 ≤ offset →
    ∃ t, step s = .next t ∧ t.replies = 0#32 :: s.replies) ∧
  (∀ (s : State) (c : Instr) (n : Nat) (offset : BitVec 8) (v : Word) (rest : List HostEvent),
    s.RunningNext c n (writeEvent offset v) rest → offset.extractLsb' 0 2 = 0#2 → 0x48#8 ≤ offset →
    ∃ m, step s = .next { s with inbox := rest, countdown := m })

/-! ## Reset -/

/-- R34: the value of every state element after reset. -/
def Obligations.ResetLeavesTheListedValues : Prop :=
  (∀ r c : Fin 4, State.reset.st.get r c = 0x00#8) ∧
  (∀ k : Fin 8, State.reset.key[k] = 0x00000000#32) ∧
  (∀ n : Fin 60, State.reset.ks[n] = 0x00000000#32) ∧
  State.reset.ksv = false ∧ State.reset.nr = 0#4 ∧ State.reset.ksize = 0#2 ∧ State.reset.busy = false ∧
  State.reset.err.code = 0#3 ∧ State.reset.result = 0x00#8 ∧ State.reset.ksidx = 0#6 ∧
  State.reset.pend = none ∧ State.reset.rctr = 0#4

/-- R250 and R251: sampling `rst` high gives every element its reset value, whatever was running; while `rst` is high a step
leaves every element there, a read returns a draw (log 3) and a write is ignored without error; KS is changed by nothing but
reset and a completing KEYEXP; when `rst` goes low the core is at its reset values; and out of reset a low sample changes nothing
(the model's countdown, log 2, left open). -/
def Obligations.ResetHoldsEveryElement : Prop :=
  (∀ (s : State) (rest : List HostEvent), s.inbox = .rst true :: rest →
    s.rst = true ∨ s.pend = none ∨ s.countdown ≠ 0 → ∃ t, step s = .next t ∧ t.rst = true ∧ t.AtReset) ∧
  (∀ s : State, s.rst = true → s.inbox = [] → ∃ t, step s = .next t ∧ t.rst = true ∧ t.AtReset) ∧
  (∀ (s : State) (offset : BitVec 8) (rest : List HostEvent), s.rst = true → s.inbox = readEvent offset :: rest →
    offset.extractLsb' 0 2 = 0#2 → ∃ t, step s = .next t ∧ t.rst = true ∧ t.AtReset ∧
      t.replies = Config.drawWord { s.cleared with inbox := rest } :: s.replies ∧ t.draws = s.draws + 1) ∧
  (∀ (s : State) (offset : BitVec 8) (v : Word) (rest : List HostEvent), s.rst = true →
    s.inbox = writeEvent offset v :: rest → offset.extractLsb' 0 2 = 0#2 →
    ∃ t, step s = .next t ∧ t.rst = true ∧ t.AtReset ∧ t.replies = s.replies) ∧
  (∀ s t : State, step s = .next t → t.ks ≠ s.ks →
    s.rst = true ∨ (∃ rest, s.inbox = .rst true :: rest) ∨ s.Due .keyexp) ∧
  (∀ (s : State) (rest : List HostEvent), s.rst = true → s.inbox = .rst false :: rest →
    ∃ t, step s = .next t ∧ t.rst = false ∧ t.AtReset) ∧
  (∀ (s : State) (rest : List HostEvent), s.rst = false → s.inbox = .rst false :: rest → s.pend = none ∨ s.countdown ≠ 0 →
    ∃ m, step s = .next { s with inbox := rest, countdown := m })

/-! ## The field, the S-box and the transformations -/

/-- R101: gmul is commutative, distributes over XOR, has identity 1, and `gmul(a, 0) = 0`. The last two clauses pin the reduction of
40_field_sbox.md section 1 (doubling is a shift, with 0x1B XORed where bit 7 is set): gmul by 0x02 doubles, and doubling an operand
doubles the product. With the laws they fix gmul at every pair of bytes. -/
def Obligations.GmulIsAFieldProduct : Prop :=
  (∀ a b : Byte, gmul a b = gmul b a) ∧
  (∀ a b c : Byte, gmul a (b ^^^ c) = gmul a b ^^^ gmul a c) ∧
  (∀ a : Byte, gmul a 1 = a) ∧
  (∀ a : Byte, gmul a 0 = 0) ∧
  (∀ a : Byte, gmul a 2 = if a.getLsbD 7 = true then (a <<< 1) ^^^ 0x1B#8 else a <<< 1) ∧
  (∀ a b : Byte, gmul a (gmul b 2) = gmul (gmul a b) 2)

/-- 40_field_sbox.md sections 1 and 2: each S-box undoes the other (permutation law), and the ROM is the affine map of the field
inverse. The affine map is from general knowledge by the spec's own mark (log 17). -/
def Obligations.SboxesComeFromTheirConstruction : Prop :=
  (∀ x : Byte, invSubByte (subByte x) = x) ∧ (∀ y : Byte, subByte (invSubByte y) = y) ∧
  ginv 0 = 0 ∧ (∀ x : Byte, x ≠ 0 → gmul x (ginv x) = 1) ∧ (∀ x : Byte, subByte x = affine (ginv x))

/-- R140, R141, R171: AddRoundKey, SubBytes and InvSubBytes byte by byte; with round key i the byte is `Wbyte(KS[4i+c], r)`;
AddRoundKey is its own inverse. -/
def Obligations.BytewiseTransformations : Prop :=
  (∀ (S K : Block) (r c : Fin 4), (addRoundKey S K).get r c = S.get r c ^^^ K.get r c) ∧
  (∀ (S : Block) (ks : Vector Word 60) (i : Nat) (r c : Fin 4),
    (addRoundKey S (roundKey ks i)).get r c = S.get r c ^^^ wbyte (ksWord ks (4 * i + c.val)) r) ∧
  (∀ S K : Block, addRoundKey (addRoundKey S K) K = S) ∧
  (∀ (S : Block) (r c : Fin 4), (subBytes S).get r c = subByte (S.get r c)) ∧
  (∀ (S : Block) (r c : Fin 4), (invSubBytes S).get r c = invSubByte (S.get r c))

/-- R172's audit: the field matrix product IM × M is the identity; and 43_round_decrypt.md section 1: InvShiftRows undoes ShiftRows,
InvSubBytes undoes SubBytes and InvMixColumns undoes MixColumns, and each the other way. -/
def Obligations.InverseTransformationsUndo : Prop :=
  (∀ r c : Fin 4,
    gmul (coefficient invMixMatrix r 0) (coefficient mixMatrix 0 c) ^^^
      gmul (coefficient invMixMatrix r 1) (coefficient mixMatrix 1 c) ^^^
      gmul (coefficient invMixMatrix r 2) (coefficient mixMatrix 2 c) ^^^
      gmul (coefficient invMixMatrix r 3) (coefficient mixMatrix 3 c) = if r = c then 1 else 0) ∧
  (∀ S : Block, invShiftRows (shiftRows S) = S ∧ shiftRows (invShiftRows S) = S) ∧
  (∀ S : Block, invSubBytes (subBytes S) = S ∧ subBytes (invSubBytes S) = S) ∧
  (∀ S : Block, invMixColumns (mixColumns S) = S ∧ mixColumns (invMixColumns S) = S)

/-- The orders of rounds (42_round_encrypt.md and 43_round_decrypt.md section 2): Cipher is AddRoundKey 0, rounds 1 to Nr-1 going up,
the final round Nr; InvCipher is AddRoundKey Nr, rounds Nr-1 to 1 going down, the final round 0. -/
def Obligations.CiphersRunTheirRoundsInOrder : Prop :=
  (∀ (ks : Vector Word 60) (nr : Nat) (S : Block), cipher ks nr S =
    encFinal ks ((List.range' 1 (nr - 1)).foldl (encRound ks) (addRoundKey S (roundKey ks 0))) nr) ∧
  (∀ (ks : Vector Word 60) (nr : Nat) (S : Block), invCipher ks nr S =
    decFinal ks ((List.range' 1 (nr - 1)).reverse.foldl (decRound ks) (addRoundKey S (roundKey ks nr))) 0)

/-- The sequence with the hidden counter computes the cipher (42_round_encrypt.md, ENCBLK internal sequence; 43_round_decrypt.md,
DECBLK internal sequence; both informative): its working state ends as Cipher, respectively InvCipher, and RCTR ends at NR,
respectively 0. -/
def Obligations.RoundSequencesComputeTheCiphers : Prop :=
  (∀ (ks : Vector Word 60) (nr : Nat) (S : Block), 1 ≤ nr →
    (encSequence ks nr S).work = cipher ks nr S ∧ (encSequence ks nr S).rctr = nr) ∧
  (∀ (ks : Vector Word 60) (nr : Nat) (S : Block),
    (decSequence ks nr S).work = invCipher ks nr S ∧ (decSequence ks nr S).rctr = 0)

/-- 43_round_decrypt.md section 2, round-trip law, "the primary correctness contract of the whole system": for any schedule,
InvCipher undoes Cipher and Cipher undoes InvCipher; and on the machine, DECBLK completing on what ENCBLK left restores ST. -/
def Obligations.DecryptionUndoesEncryption : Prop :=
  (∀ (ks : Vector Word 60) (nr : Nat) (S : Block), invCipher ks nr (cipher ks nr S) = S) ∧
  (∀ (ks : Vector Word 60) (nr : Nat) (S : Block), cipher ks nr (invCipher ks nr S) = S) ∧
  (∀ s : State, s.Due .encblk → ∃ t, exec .encblk s = .next t ∧
    ∃ u, exec .decblk { t with pend := some .decblk, countdown := 0 } = .next u ∧ u.st = s.st)

/-! ## The key schedule -/

/-- R120: the table of key sizes; KSIZE = 3 has no row, and KEYEXP then raises CONFIG. -/
def Obligations.KeySizesAreTheTable : Prop :=
  (4 * nkOf 0#2 = 16 ∧ nkOf 0#2 = 4 ∧ nrOf 0#2 = 10 ∧ scheduleWords (nrOf 0#2) = 44 ∧ nrOf 0#2 + 1 = 11) ∧
  (4 * nkOf 1#2 = 24 ∧ nkOf 1#2 = 6 ∧ nrOf 1#2 = 12 ∧ scheduleWords (nrOf 1#2) = 52 ∧ nrOf 1#2 + 1 = 13) ∧
  (4 * nkOf 2#2 = 32 ∧ nkOf 2#2 = 8 ∧ nrOf 2#2 = 14 ∧ scheduleWords (nrOf 2#2) = 60 ∧ nrOf 2#2 + 1 = 15) ∧
  (∀ n : Nat, scheduleWords n = 4 * (n + 1)) ∧
  (∀ s : State, s.pend = none → s.ksize = 3#2 → s.err = .none → exec .keyexp s = .next { s with err := .config })

/-- R123: SubWord substitutes every byte. -/
def Obligations.SubWordIsBytewise : Prop :=
  ∀ t : Word, subWord t = subByte (t.extractLsb' 24 8) ++ subByte (t.extractLsb' 16 8) ++ subByte (t.extractLsb' 8 8) ++
    subByte (t.extractLsb' 0 8)

/-- RotWord and the round constants (41_key_expansion.md section 1): `[t0, t1, t2, t3]` becomes `[t1, t2, t3, t0]`; `RCON[1] = 0x01` and
`RCON[j+1] = gmul(RCON[j], 0x02)`. -/
def Obligations.RotWordAndRoundConstants : Prop :=
  (∀ b0 b1 b2 b3 : Byte, rotWord (b0 ++ b1 ++ b2 ++ b3) = b1 ++ b2 ++ b3 ++ b0) ∧
  rcon 1 = 0x01#8 ∧ ∀ j : Nat, 1 ≤ j → j < 10 → rcon (j + 1) = gmul (rcon j) 0x02#8

/-- R124: the recurrence. For a key of Nk words and a legal size, the schedule has 4*(Nr+1) words, the first Nk are the key's, and
every later word is `W[i-Nk] ^ temp`, with temp from `W[i-1]` by RotWord, SubWord and RCON at multiples of Nk, by SubWord at
i mod 8 = 4 for Nk = 8 only, and plain elsewhere. -/
def Obligations.ScheduleFollowsTheRecurrence : Prop :=
  ∀ (k : List Word) (nk nr : Nat), k.length = nk → (nk = 4 ∧ nr = 10) ∨ (nk = 6 ∧ nr = 12) ∨ (nk = 8 ∧ nr = 14) →
    (expand k nk nr).length = 4 * (nr + 1) ∧
    (∀ i, i < nk → (expand k nk nr).getD i 0#32 = k.getD i 0#32) ∧
    (∀ i, nk ≤ i → i < 4 * (nr + 1) →
      (expand k nk nr).getD i 0#32 = (expand k nk nr).getD (i - nk) 0#32 ^^^
        (if i % nk = 0 then subWord (rotWord ((expand k nk nr).getD (i - 1) 0#32)) ^^^ (rcon (i / nk) ++ 0#24)
          else if nk = 8 ∧ i % nk = 4 then subWord ((expand k nk nr).getD (i - 1) 0#32)
          else (expand k nk nr).getD (i - 1) 0#32))

/-- 41_key_expansion.md section 3, schedule shape (an inference the spec marks as its own): after KEYEXP completes, the first Nk words
of KS are the key's, and every word of the RAM at or above 4*(Nr+1) is 0. -/
def Obligations.CompletedScheduleHasItsShape : Prop :=
  ∀ s : State, s.Due .keyexp → s.ksize ≠ 3#2 → ∃ t, exec .keyexp s = .next t ∧
    t.nr.toNat = nrOf s.ksize ∧
    (∀ (n : Nat) (h : n < nkOf s.ksize) (h8 : n < 8), ksWord t.ks n = s.key[n]) ∧
    (∀ n, 4 * (nrOf s.ksize + 1) ≤ n → n < 60 → ksWord t.ks n = 0#32)

/-! ## Whole-machine rules -/

/-- The invariant holds at reset. -/
def Obligations.ResetMeetsTheInvariant : Prop := State.reset.Inv

/-- Every step keeps the invariant: KSV, NR and KS agree (NR is 0 without a schedule and 10, 12 or 14 with one, KS is 0 above it),
the running command passed its checks, and while `rst` is high every element is at its reset value (10_state.md section 2;
20_memory.md section 4; 70_reset_and_hazards.md section 1). -/
def Obligations.StepKeepsTheInvariant : Prop :=
  ∀ s t : State, s.Inv → step s = .next t → t.Inv

/-- 10_state.md section 7, key-schedule immutability (an inference the spec marks as its own): a step leaves KS, KSV and NR alone
unless it is the completion of a KEYEXP or a reset. -/
def Obligations.KeyScheduleIsImmutable : Prop :=
  ∀ s t : State, step s = .next t →
    (t.ks = s.ks ∧ t.ksv = s.ksv ∧ t.nr = s.nr) ∨
    (s.rst = false ∧ s.Due .keyexp) ∨ s.rst = true ∨ (∃ rest, s.inbox = .rst true :: rest)

/-- The key is never revealed by an access (10_state.md section 7, sensitivity; 20_memory.md section 5): two states that differ only
in KEY step alike, to the same refusal or to states that again differ only in KEY, with the same replies, unless a KEYEXP completes.
What the spec leaves free may differ: the latency of a command that this step accepts, which "may differ by opcode and by data"
(70_reset_and_hazards.md section 4; log 2), and a reply that is a draw (log 3). -/
def Obligations.KeyReachesNothingButTheSchedule : Prop :=
  ∀ (s : State) (k : Vector Word 8), ¬ s.Due .keyexp →
    (∀ t, step s = .next t → ∃ t', step { s with key := k } = .next t' ∧
      { t' with key := t.key, countdown := t.countdown, replies := t.replies } = t ∧
      (t'.countdown = t.countdown ∨ (s.pend = none ∧ t.pend ≠ none)) ∧
      t'.replies.tail = t.replies.tail ∧
      (t'.replies = t.replies ∨ ∃ offset rest, s.inbox = readEvent offset :: rest ∧
        (s.rst = true ∨ (s.pend ≠ none ∧
          (offset = 0x08#8 ∨ offset = 0x0C#8 ∨ offset = 0x10#8 ∨ offset = 0x14#8 ∨ offset = 0x18#8 ∨ offset = 0x1C#8 ∨
            offset = 0x44#8))))) ∧
    (∀ r, step s = .refused r → step { s with key := k } = .refused r)

/-- Every accepted command completes (60_exceptions.md section 1; 20_memory.md section 4), however the host's ordinary accesses fall
while it runs: after the countdown the command is due, ST, KEY, KS, KSV, NR, KSIZE, RESULT, KSIDX and RCTR are as at
acceptance, and the next step is its completion, after which the core is idle. The model's choice (log 2): that the latency is
finite, that every slot counts with or without an event, and that the completion is a step of its own. -/
def Obligations.AcceptedCommandsComplete : Prop :=
  ∀ (s : State) (c : Instr), s.rst = false → s.pend = some c → (∀ e ∈ s.inbox, e.ordinary = true) →
    ∃ t u : State,
      Host.Core.run Sys2Proof.core s.countdown s = .next t ∧ t.Due c ∧ t.rst = false ∧
      t.st = s.st ∧ t.key = s.key ∧ t.ks = s.ks ∧ t.ksv = s.ksv ∧ t.nr = s.nr ∧ t.ksize = s.ksize ∧
      t.result = s.result ∧ t.ksidx = s.ksidx ∧ t.rctr = s.rctr ∧
      Host.Core.run Sys2Proof.core (s.countdown + 1) s = .next u ∧ exec c t = .next u ∧ u.pend = none
end

