-- ==== Sys2Proof/Laws/Decode.lean ====
section
/-! SUPPORT. The fields of a word of format C, what a row's mask says about a word, and what a successful decoding says. -/

namespace Sys2Proof

/-! ## Fields of a word written as B, A, zero, RND, OP -/

theorem opField_format (b a : Byte) (z r : BitVec 4) (o : Byte) : opField (b ++ a ++ z ++ r ++ o) = o := by
  unfold opField
  apply BitVec.eq_of_getElem_eq
  intro i hi
  simp only [BitVec.getElem_extractLsb', BitVec.getLsbD_append]
  interval_cases i <;> simp

theorem rnd_format (b a : Byte) (z r : BitVec 4) (o : Byte) : (b ++ a ++ z ++ r ++ o).extractLsb' 8 4 = r := by
  apply BitVec.eq_of_getElem_eq
  intro i hi
  simp only [BitVec.getElem_extractLsb', BitVec.getLsbD_append]
  interval_cases i <;> simp

theorem aField_format (b a : Byte) (z r : BitVec 4) (o : Byte) : aField (b ++ a ++ z ++ r ++ o) = a := by
  unfold aField
  apply BitVec.eq_of_getElem_eq
  intro i hi
  simp only [BitVec.getElem_extractLsb', BitVec.getLsbD_append]
  interval_cases i <;> simp

theorem bField_format (b a : Byte) (z r : BitVec 4) (o : Byte) : bField (b ++ a ++ z ++ r ++ o) = b := by
  unfold bField
  apply BitVec.eq_of_getElem_eq
  intro i hi
  simp only [BitVec.getElem_extractLsb', BitVec.getLsbD_append]
  interval_cases i <;> simp

theorem rndField_lt (v : Word) : rndField v < 16 := (v.extractLsb' 8 4).isLt

theorem ofNat_rndField (v : Word) : BitVec.ofNat 4 (rndField v) = v.extractLsb' 8 4 := by
  simp only [rndField, BitVec.ofNat_toNat, BitVec.setWidth_eq]

/-! ## What a row's mask and match say about a word -/

/-- A word that matches a row has the row's OP. -/
theorem opField_of_mask (f : Form) {v : Word} {o : Byte} (h : v &&& f.mask = o.setWidth 32) : opField v = o := by
  apply BitVec.eq_of_getElem_eq
  intro j hj
  have hbit := congrArg (·.getLsbD j) h
  have h32 : j < 32 := by omega
  simp only [opField, BitVec.getElem_extractLsb', BitVec.getLsbD_and, BitVec.getLsbD_setWidth] at *
  cases f <;> (simp only [Form.mask] at hbit; interval_cases j <;> simpa using hbit)

/-- A word that matches a row of form N is the row's OP with the fields the form uses and zeros elsewhere. -/
theorem word_of_mask_none {v : Word} {o : Byte} (h : v &&& Form.none.mask = o.setWidth 32) :
    0#8 ++ 0#8 ++ 0#4 ++ 0#4 ++ o = v := by
  apply BitVec.eq_of_getElem_eq
  intro j hj
  have hbit := congrArg (·.getLsbD j) h
  simp only [BitVec.getElem_append, BitVec.getLsbD_and, BitVec.getLsbD_setWidth, Form.mask] at *
  interval_cases j <;> simp_all

/-- A word that matches a row of form R is the row's OP with the fields the form uses and zeros elsewhere. -/
theorem word_of_mask_round {v : Word} {o : Byte} (h : v &&& Form.round.mask = o.setWidth 32) :
    0#8 ++ 0#8 ++ 0#4 ++ v.extractLsb' 8 4 ++ o = v := by
  apply BitVec.eq_of_getElem_eq
  intro j hj
  have hbit := congrArg (·.getLsbD j) h
  simp only [BitVec.getElem_append, BitVec.getLsbD_and, BitVec.getLsbD_setWidth, Form.mask] at *
  interval_cases j <;> simp_all

/-- A word that matches a row of form A is the row's OP with the fields the form uses and zeros elsewhere. -/
theorem word_of_mask_byte {v : Word} {o : Byte} (h : v &&& Form.byte.mask = o.setWidth 32) :
    0#8 ++ aField v ++ 0#4 ++ 0#4 ++ o = v := by
  unfold aField
  apply BitVec.eq_of_getElem_eq
  intro j hj
  have hbit := congrArg (·.getLsbD j) h
  simp only [BitVec.getElem_append, BitVec.getLsbD_and, BitVec.getLsbD_setWidth, Form.mask] at *
  interval_cases j <;> simp_all

/-- A word that matches a row of form AB is the row's OP with the fields the form uses and zeros elsewhere. -/
theorem word_of_mask_bytes {v : Word} {o : Byte} (h : v &&& Form.bytes.mask = o.setWidth 32) :
    bField v ++ aField v ++ 0#4 ++ 0#4 ++ o = v := by
  unfold aField bField
  apply BitVec.eq_of_getElem_eq
  intro j hj
  have hbit := congrArg (·.getLsbD j) h
  simp only [BitVec.getElem_append, BitVec.getLsbD_and, BitVec.getLsbD_setWidth, Form.mask] at *
  interval_cases j <;> simp_all

/-! ## Decoding -/

/-- A word that decodes has the decoded command's OP, operands and mask. -/
theorem decode_ok {v : Word} {i : Instr} (h : decode v = .ok i) :
    decodeOp v = some i ∧ v &&& i.form.mask = i.opcode.setWidth 32 := by
  unfold decode at h
  split at h
  · exact absurd h (by simp)
  next j hj =>
    split at h
    next hm =>
      obtain rfl : j = i := by simpa using h
      exact ⟨hj, by simpa [rowMatches] using hm⟩
    · exact absurd h (by simp)

/-- A decoded command is well formed. -/
theorem decode_wellFormed {v : Word} {i : Instr} (h : decode v = .ok i) : i.WellFormed := by
  have hd := (decode_ok h).1
  have hl := rndField_lt v
  unfold decodeOp at hd
  split at hd <;> simp only [Option.some.injEq, reduceCtorEq] at hd <;> subst hd <;>
    simp [Instr.WellFormed, Instr.wellFormed, roundIndexOk, hl]

end Sys2Proof
end

