-- ==== Sys2Proof/Laws/Field.lean ====
section
/-! SUPPORT. The multiplier's loop is linear in each operand, which its laws (40_field_sbox.md R101) rest on. -/

namespace Sys2Proof.Machine

/-- A byte added to both terms of a sum cancels. -/
theorem xor_xor_same (p q a : Byte) : p ^^^ a ^^^ (q ^^^ a) = p ^^^ q := by
  rw [show p ^^^ a ^^^ (q ^^^ a) = p ^^^ q ^^^ (a ^^^ a) by ac_rfl, BitVec.xor_self, BitVec.xor_zero]

/-- Doubling is linear. -/
theorem xtime_xor (a b : Byte) : xtime (a ^^^ b) = xtime a ^^^ xtime b := by
  have h : (a ^^^ b) <<< 1 = (a <<< 1) ^^^ (b <<< 1) := BitVec.shiftLeft_xor_distrib ..
  simp only [xtime, BitVec.getLsbD_xor, h]
  cases a.getLsbD 7 <;> cases b.getLsbD 7 <;> simp <;> grind

/-- The loop is linear in its first operand. -/
theorem gmulLoop_xor_left (n : Nat) (p q a a' b : Byte) :
    gmulLoop n (p ^^^ q) (a ^^^ a') b = gmulLoop n p a b ^^^ gmulLoop n q a' b := by
  induction n generalizing p q a a' b with
  | zero => rfl
  | succ n ih =>
    simp only [gmulLoop, xtime_xor]
    rw [← ih]
    congr 1
    split
    · ac_rfl
    · rfl

/-- The loop is linear in its second operand. -/
theorem gmulLoop_xor_right (n : Nat) (p q a b b' : Byte) :
    gmulLoop n (p ^^^ q) a (b ^^^ b') = gmulLoop n p a b ^^^ gmulLoop n q a b' := by
  induction n generalizing p q a b b' with
  | zero => rfl
  | succ n ih =>
    have h : (b ^^^ b') >>> 1 = (b >>> 1) ^^^ (b' >>> 1) := BitVec.ushiftRight_xor_distrib ..
    simp only [gmulLoop, h, BitVec.getLsbD_xor]
    rw [← ih]
    congr 1
    cases b.getLsbD 0 <;> cases b'.getLsbD 0 <;> simp
    · ac_rfl
    · ac_rfl
    · exact (xor_xor_same p q a).symm

end Sys2Proof.Machine
end

