-- ==== Sys2Proof/Laws/State.lean ====
section
/-! SUPPORT. For each named update of the state, what it does to each field: one lemma per field, for the simplifier. -/

namespace Sys2Proof.Machine

/-! ## raise -/

@[simp] theorem State.raise_st (s : State) (code : ErrCode) : (s.raise code).st = s.st := by unfold State.raise; split <;> rfl
@[simp] theorem State.raise_key (s : State) (code : ErrCode) : (s.raise code).key = s.key := by unfold State.raise; split <;> rfl
@[simp] theorem State.raise_ks (s : State) (code : ErrCode) : (s.raise code).ks = s.ks := by unfold State.raise; split <;> rfl
@[simp] theorem State.raise_ksv (s : State) (code : ErrCode) : (s.raise code).ksv = s.ksv := by unfold State.raise; split <;> rfl
@[simp] theorem State.raise_nr (s : State) (code : ErrCode) : (s.raise code).nr = s.nr := by unfold State.raise; split <;> rfl
@[simp] theorem State.raise_ksize (s : State) (code : ErrCode) : (s.raise code).ksize = s.ksize := by unfold State.raise; split <;> rfl
@[simp] theorem State.raise_err (s : State) (code : ErrCode) : (s.raise code).err = if s.err = .none then code else s.err := by unfold State.raise; split <;> rfl
@[simp] theorem State.raise_result (s : State) (code : ErrCode) : (s.raise code).result = s.result := by unfold State.raise; split <;> rfl
@[simp] theorem State.raise_ksidx (s : State) (code : ErrCode) : (s.raise code).ksidx = s.ksidx := by unfold State.raise; split <;> rfl
@[simp] theorem State.raise_pend (s : State) (code : ErrCode) : (s.raise code).pend = s.pend := by unfold State.raise; split <;> rfl
@[simp] theorem State.raise_rctr (s : State) (code : ErrCode) : (s.raise code).rctr = s.rctr := by unfold State.raise; split <;> rfl
@[simp] theorem State.raise_rst (s : State) (code : ErrCode) : (s.raise code).rst = s.rst := by unfold State.raise; split <;> rfl
@[simp] theorem State.raise_inbox (s : State) (code : ErrCode) : (s.raise code).inbox = s.inbox := by unfold State.raise; split <;> rfl
@[simp] theorem State.raise_replies (s : State) (code : ErrCode) : (s.raise code).replies = s.replies := by unfold State.raise; split <;> rfl
@[simp] theorem State.raise_countdown (s : State) (code : ErrCode) : (s.raise code).countdown = s.countdown := by unfold State.raise; split <;> rfl
@[simp] theorem State.raise_draws (s : State) (code : ErrCode) : (s.raise code).draws = s.draws := by unfold State.raise; split <;> rfl

/-! ## accept -/

@[simp] theorem State.accept_st (s : State) (c : Instr) : (s.accept c).st = s.st := rfl
@[simp] theorem State.accept_key (s : State) (c : Instr) : (s.accept c).key = s.key := rfl
@[simp] theorem State.accept_ks (s : State) (c : Instr) : (s.accept c).ks = s.ks := rfl
@[simp] theorem State.accept_ksv (s : State) (c : Instr) : (s.accept c).ksv = s.ksv := rfl
@[simp] theorem State.accept_nr (s : State) (c : Instr) : (s.accept c).nr = s.nr := rfl
@[simp] theorem State.accept_ksize (s : State) (c : Instr) : (s.accept c).ksize = s.ksize := rfl
@[simp] theorem State.accept_err (s : State) (c : Instr) : (s.accept c).err = s.err := rfl
@[simp] theorem State.accept_result (s : State) (c : Instr) : (s.accept c).result = s.result := rfl
@[simp] theorem State.accept_ksidx (s : State) (c : Instr) : (s.accept c).ksidx = s.ksidx := rfl
@[simp] theorem State.accept_pend (s : State) (c : Instr) : (s.accept c).pend = some c := rfl
@[simp] theorem State.accept_rctr (s : State) (c : Instr) : (s.accept c).rctr = s.rctr := rfl
@[simp] theorem State.accept_rst (s : State) (c : Instr) : (s.accept c).rst = s.rst := rfl
@[simp] theorem State.accept_inbox (s : State) (c : Instr) : (s.accept c).inbox = s.inbox := rfl
@[simp] theorem State.accept_replies (s : State) (c : Instr) : (s.accept c).replies = s.replies := rfl
@[simp] theorem State.accept_countdown (s : State) (c : Instr) : (s.accept c).countdown = Config.latency c s := rfl
@[simp] theorem State.accept_draws (s : State) (c : Instr) : (s.accept c).draws = s.draws + 1 := rfl

/-! ## finish -/

@[simp] theorem State.finish_st (s : State) : (s.finish).st = s.st := rfl
@[simp] theorem State.finish_key (s : State) : (s.finish).key = s.key := rfl
@[simp] theorem State.finish_ks (s : State) : (s.finish).ks = s.ks := rfl
@[simp] theorem State.finish_ksv (s : State) : (s.finish).ksv = s.ksv := rfl
@[simp] theorem State.finish_nr (s : State) : (s.finish).nr = s.nr := rfl
@[simp] theorem State.finish_ksize (s : State) : (s.finish).ksize = s.ksize := rfl
@[simp] theorem State.finish_err (s : State) : (s.finish).err = s.err := rfl
@[simp] theorem State.finish_result (s : State) : (s.finish).result = s.result := rfl
@[simp] theorem State.finish_ksidx (s : State) : (s.finish).ksidx = s.ksidx := rfl
@[simp] theorem State.finish_pend (s : State) : (s.finish).pend = none := rfl
@[simp] theorem State.finish_rctr (s : State) : (s.finish).rctr = s.rctr := rfl
@[simp] theorem State.finish_rst (s : State) : (s.finish).rst = s.rst := rfl
@[simp] theorem State.finish_inbox (s : State) : (s.finish).inbox = s.inbox := rfl
@[simp] theorem State.finish_replies (s : State) : (s.finish).replies = s.replies := rfl
@[simp] theorem State.finish_countdown (s : State) : (s.finish).countdown = s.countdown := rfl
@[simp] theorem State.finish_draws (s : State) : (s.finish).draws = s.draws := rfl

/-! ## setSt -/

@[simp] theorem State.setSt_st (s : State) (S : Block) : (s.setSt S).st = S := rfl
@[simp] theorem State.setSt_key (s : State) (S : Block) : (s.setSt S).key = s.key := rfl
@[simp] theorem State.setSt_ks (s : State) (S : Block) : (s.setSt S).ks = s.ks := rfl
@[simp] theorem State.setSt_ksv (s : State) (S : Block) : (s.setSt S).ksv = s.ksv := rfl
@[simp] theorem State.setSt_nr (s : State) (S : Block) : (s.setSt S).nr = s.nr := rfl
@[simp] theorem State.setSt_ksize (s : State) (S : Block) : (s.setSt S).ksize = s.ksize := rfl
@[simp] theorem State.setSt_err (s : State) (S : Block) : (s.setSt S).err = s.err := rfl
@[simp] theorem State.setSt_result (s : State) (S : Block) : (s.setSt S).result = s.result := rfl
@[simp] theorem State.setSt_ksidx (s : State) (S : Block) : (s.setSt S).ksidx = s.ksidx := rfl
@[simp] theorem State.setSt_pend (s : State) (S : Block) : (s.setSt S).pend = s.pend := rfl
@[simp] theorem State.setSt_rctr (s : State) (S : Block) : (s.setSt S).rctr = s.rctr := rfl
@[simp] theorem State.setSt_rst (s : State) (S : Block) : (s.setSt S).rst = s.rst := rfl
@[simp] theorem State.setSt_inbox (s : State) (S : Block) : (s.setSt S).inbox = s.inbox := rfl
@[simp] theorem State.setSt_replies (s : State) (S : Block) : (s.setSt S).replies = s.replies := rfl
@[simp] theorem State.setSt_countdown (s : State) (S : Block) : (s.setSt S).countdown = s.countdown := rfl
@[simp] theorem State.setSt_draws (s : State) (S : Block) : (s.setSt S).draws = s.draws := rfl

/-! ## setResult -/

@[simp] theorem State.setResult_st (s : State) (v : Byte) : (s.setResult v).st = s.st := rfl
@[simp] theorem State.setResult_key (s : State) (v : Byte) : (s.setResult v).key = s.key := rfl
@[simp] theorem State.setResult_ks (s : State) (v : Byte) : (s.setResult v).ks = s.ks := rfl
@[simp] theorem State.setResult_ksv (s : State) (v : Byte) : (s.setResult v).ksv = s.ksv := rfl
@[simp] theorem State.setResult_nr (s : State) (v : Byte) : (s.setResult v).nr = s.nr := rfl
@[simp] theorem State.setResult_ksize (s : State) (v : Byte) : (s.setResult v).ksize = s.ksize := rfl
@[simp] theorem State.setResult_err (s : State) (v : Byte) : (s.setResult v).err = s.err := rfl
@[simp] theorem State.setResult_result (s : State) (v : Byte) : (s.setResult v).result = v := rfl
@[simp] theorem State.setResult_ksidx (s : State) (v : Byte) : (s.setResult v).ksidx = s.ksidx := rfl
@[simp] theorem State.setResult_pend (s : State) (v : Byte) : (s.setResult v).pend = s.pend := rfl
@[simp] theorem State.setResult_rctr (s : State) (v : Byte) : (s.setResult v).rctr = s.rctr := rfl
@[simp] theorem State.setResult_rst (s : State) (v : Byte) : (s.setResult v).rst = s.rst := rfl
@[simp] theorem State.setResult_inbox (s : State) (v : Byte) : (s.setResult v).inbox = s.inbox := rfl
@[simp] theorem State.setResult_replies (s : State) (v : Byte) : (s.setResult v).replies = s.replies := rfl
@[simp] theorem State.setResult_countdown (s : State) (v : Byte) : (s.setResult v).countdown = s.countdown := rfl
@[simp] theorem State.setResult_draws (s : State) (v : Byte) : (s.setResult v).draws = s.draws := rfl

/-! ## reply -/

@[simp] theorem State.reply_st (s : State) (v : Word) : (s.reply v).st = s.st := rfl
@[simp] theorem State.reply_key (s : State) (v : Word) : (s.reply v).key = s.key := rfl
@[simp] theorem State.reply_ks (s : State) (v : Word) : (s.reply v).ks = s.ks := rfl
@[simp] theorem State.reply_ksv (s : State) (v : Word) : (s.reply v).ksv = s.ksv := rfl
@[simp] theorem State.reply_nr (s : State) (v : Word) : (s.reply v).nr = s.nr := rfl
@[simp] theorem State.reply_ksize (s : State) (v : Word) : (s.reply v).ksize = s.ksize := rfl
@[simp] theorem State.reply_err (s : State) (v : Word) : (s.reply v).err = s.err := rfl
@[simp] theorem State.reply_result (s : State) (v : Word) : (s.reply v).result = s.result := rfl
@[simp] theorem State.reply_ksidx (s : State) (v : Word) : (s.reply v).ksidx = s.ksidx := rfl
@[simp] theorem State.reply_pend (s : State) (v : Word) : (s.reply v).pend = s.pend := rfl
@[simp] theorem State.reply_rctr (s : State) (v : Word) : (s.reply v).rctr = s.rctr := rfl
@[simp] theorem State.reply_rst (s : State) (v : Word) : (s.reply v).rst = s.rst := rfl
@[simp] theorem State.reply_inbox (s : State) (v : Word) : (s.reply v).inbox = s.inbox := rfl
@[simp] theorem State.reply_replies (s : State) (v : Word) : (s.reply v).replies = v :: s.replies := rfl
@[simp] theorem State.reply_countdown (s : State) (v : Word) : (s.reply v).countdown = s.countdown := rfl
@[simp] theorem State.reply_draws (s : State) (v : Word) : (s.reply v).draws = s.draws := rfl

/-! ## drawn -/

@[simp] theorem State.drawn_st (s : State) : (s.drawn).st = s.st := rfl
@[simp] theorem State.drawn_key (s : State) : (s.drawn).key = s.key := rfl
@[simp] theorem State.drawn_ks (s : State) : (s.drawn).ks = s.ks := rfl
@[simp] theorem State.drawn_ksv (s : State) : (s.drawn).ksv = s.ksv := rfl
@[simp] theorem State.drawn_nr (s : State) : (s.drawn).nr = s.nr := rfl
@[simp] theorem State.drawn_ksize (s : State) : (s.drawn).ksize = s.ksize := rfl
@[simp] theorem State.drawn_err (s : State) : (s.drawn).err = s.err := rfl
@[simp] theorem State.drawn_result (s : State) : (s.drawn).result = s.result := rfl
@[simp] theorem State.drawn_ksidx (s : State) : (s.drawn).ksidx = s.ksidx := rfl
@[simp] theorem State.drawn_pend (s : State) : (s.drawn).pend = s.pend := rfl
@[simp] theorem State.drawn_rctr (s : State) : (s.drawn).rctr = s.rctr := rfl
@[simp] theorem State.drawn_rst (s : State) : (s.drawn).rst = s.rst := rfl
@[simp] theorem State.drawn_inbox (s : State) : (s.drawn).inbox = s.inbox := rfl
@[simp] theorem State.drawn_replies (s : State) : (s.drawn).replies = s.replies := rfl
@[simp] theorem State.drawn_countdown (s : State) : (s.drawn).countdown = s.countdown := rfl
@[simp] theorem State.drawn_draws (s : State) : (s.drawn).draws = s.draws + 1 := rfl

/-! ## cleared -/

@[simp] theorem State.cleared_st (s : State) : (s.cleared).st = Block.zero := rfl
@[simp] theorem State.cleared_key (s : State) : (s.cleared).key = Vector.replicate 8 0#32 := rfl
@[simp] theorem State.cleared_ks (s : State) : (s.cleared).ks = Vector.replicate 60 0#32 := rfl
@[simp] theorem State.cleared_ksv (s : State) : (s.cleared).ksv = false := rfl
@[simp] theorem State.cleared_nr (s : State) : (s.cleared).nr = 0#4 := rfl
@[simp] theorem State.cleared_ksize (s : State) : (s.cleared).ksize = 0#2 := rfl
@[simp] theorem State.cleared_err (s : State) : (s.cleared).err = .none := rfl
@[simp] theorem State.cleared_result (s : State) : (s.cleared).result = 0#8 := rfl
@[simp] theorem State.cleared_ksidx (s : State) : (s.cleared).ksidx = 0#6 := rfl
@[simp] theorem State.cleared_pend (s : State) : (s.cleared).pend = none := rfl
@[simp] theorem State.cleared_rctr (s : State) : (s.cleared).rctr = 0#4 := rfl
@[simp] theorem State.cleared_rst (s : State) : (s.cleared).rst = s.rst := rfl
@[simp] theorem State.cleared_inbox (s : State) : (s.cleared).inbox = s.inbox := rfl
@[simp] theorem State.cleared_replies (s : State) : (s.cleared).replies = s.replies := rfl
@[simp] theorem State.cleared_countdown (s : State) : (s.cleared).countdown = 0 := rfl
@[simp] theorem State.cleared_draws (s : State) : (s.cleared).draws = s.draws := rfl

/-! ## expandKey -/

@[simp] theorem State.expandKey_st (s : State) : (s.expandKey).st = s.st := by simp only [State.expandKey]
@[simp] theorem State.expandKey_key (s : State) : (s.expandKey).key = s.key := by simp only [State.expandKey]
@[simp] theorem State.expandKey_ks (s : State) : (s.expandKey).ks = s.newSchedule := by simp only [State.expandKey]
@[simp] theorem State.expandKey_ksv (s : State) : (s.expandKey).ksv = true := by simp only [State.expandKey]
@[simp] theorem State.expandKey_nr (s : State) : (s.expandKey).nr = BitVec.ofNat 4 (nrOf s.ksize) := by simp only [State.expandKey]
@[simp] theorem State.expandKey_ksize (s : State) : (s.expandKey).ksize = s.ksize := by simp only [State.expandKey]
@[simp] theorem State.expandKey_err (s : State) : (s.expandKey).err = s.err := by simp only [State.expandKey]
@[simp] theorem State.expandKey_result (s : State) : (s.expandKey).result = s.result := by simp only [State.expandKey]
@[simp] theorem State.expandKey_ksidx (s : State) : (s.expandKey).ksidx = s.ksidx := by simp only [State.expandKey]
@[simp] theorem State.expandKey_pend (s : State) : (s.expandKey).pend = s.pend := by simp only [State.expandKey]
@[simp] theorem State.expandKey_rctr (s : State) : (s.expandKey).rctr = s.rctr := by simp only [State.expandKey]
@[simp] theorem State.expandKey_rst (s : State) : (s.expandKey).rst = s.rst := by simp only [State.expandKey]
@[simp] theorem State.expandKey_inbox (s : State) : (s.expandKey).inbox = s.inbox := by simp only [State.expandKey]
@[simp] theorem State.expandKey_replies (s : State) : (s.expandKey).replies = s.replies := by simp only [State.expandKey]
@[simp] theorem State.expandKey_countdown (s : State) : (s.expandKey).countdown = s.countdown := by simp only [State.expandKey]
@[simp] theorem State.expandKey_draws (s : State) : (s.expandKey).draws = s.draws := by simp only [State.expandKey]

/-! ## encryptBlock -/

@[simp] theorem State.encryptBlock_st (s : State) : (s.encryptBlock).st = cipher s.ks s.nr.toNat s.st := by simp only [State.encryptBlock]
@[simp] theorem State.encryptBlock_key (s : State) : (s.encryptBlock).key = s.key := by simp only [State.encryptBlock]
@[simp] theorem State.encryptBlock_ks (s : State) : (s.encryptBlock).ks = s.ks := by simp only [State.encryptBlock]
@[simp] theorem State.encryptBlock_ksv (s : State) : (s.encryptBlock).ksv = s.ksv := by simp only [State.encryptBlock]
@[simp] theorem State.encryptBlock_nr (s : State) : (s.encryptBlock).nr = s.nr := by simp only [State.encryptBlock]
@[simp] theorem State.encryptBlock_ksize (s : State) : (s.encryptBlock).ksize = s.ksize := by simp only [State.encryptBlock]
@[simp] theorem State.encryptBlock_err (s : State) : (s.encryptBlock).err = s.err := by simp only [State.encryptBlock]
@[simp] theorem State.encryptBlock_result (s : State) : (s.encryptBlock).result = s.result := by simp only [State.encryptBlock]
@[simp] theorem State.encryptBlock_ksidx (s : State) : (s.encryptBlock).ksidx = s.ksidx := by simp only [State.encryptBlock]
@[simp] theorem State.encryptBlock_pend (s : State) : (s.encryptBlock).pend = s.pend := by simp only [State.encryptBlock]
@[simp] theorem State.encryptBlock_rctr (s : State) : (s.encryptBlock).rctr = BitVec.ofNat 4 (encSequence s.ks s.nr.toNat s.st).rctr := by simp only [State.encryptBlock]
@[simp] theorem State.encryptBlock_rst (s : State) : (s.encryptBlock).rst = s.rst := by simp only [State.encryptBlock]
@[simp] theorem State.encryptBlock_inbox (s : State) : (s.encryptBlock).inbox = s.inbox := by simp only [State.encryptBlock]
@[simp] theorem State.encryptBlock_replies (s : State) : (s.encryptBlock).replies = s.replies := by simp only [State.encryptBlock]
@[simp] theorem State.encryptBlock_countdown (s : State) : (s.encryptBlock).countdown = s.countdown := by simp only [State.encryptBlock]
@[simp] theorem State.encryptBlock_draws (s : State) : (s.encryptBlock).draws = s.draws := by simp only [State.encryptBlock]

/-! ## decryptBlock -/

@[simp] theorem State.decryptBlock_st (s : State) : (s.decryptBlock).st = invCipher s.ks s.nr.toNat s.st := by simp only [State.decryptBlock]
@[simp] theorem State.decryptBlock_key (s : State) : (s.decryptBlock).key = s.key := by simp only [State.decryptBlock]
@[simp] theorem State.decryptBlock_ks (s : State) : (s.decryptBlock).ks = s.ks := by simp only [State.decryptBlock]
@[simp] theorem State.decryptBlock_ksv (s : State) : (s.decryptBlock).ksv = s.ksv := by simp only [State.decryptBlock]
@[simp] theorem State.decryptBlock_nr (s : State) : (s.decryptBlock).nr = s.nr := by simp only [State.decryptBlock]
@[simp] theorem State.decryptBlock_ksize (s : State) : (s.decryptBlock).ksize = s.ksize := by simp only [State.decryptBlock]
@[simp] theorem State.decryptBlock_err (s : State) : (s.decryptBlock).err = s.err := by simp only [State.decryptBlock]
@[simp] theorem State.decryptBlock_result (s : State) : (s.decryptBlock).result = s.result := by simp only [State.decryptBlock]
@[simp] theorem State.decryptBlock_ksidx (s : State) : (s.decryptBlock).ksidx = s.ksidx := by simp only [State.decryptBlock]
@[simp] theorem State.decryptBlock_pend (s : State) : (s.decryptBlock).pend = s.pend := by simp only [State.decryptBlock]
@[simp] theorem State.decryptBlock_rctr (s : State) : (s.decryptBlock).rctr = BitVec.ofNat 4 (decSequence s.ks s.nr.toNat s.st).rctr := by simp only [State.decryptBlock]
@[simp] theorem State.decryptBlock_rst (s : State) : (s.decryptBlock).rst = s.rst := by simp only [State.decryptBlock]
@[simp] theorem State.decryptBlock_inbox (s : State) : (s.decryptBlock).inbox = s.inbox := by simp only [State.decryptBlock]
@[simp] theorem State.decryptBlock_replies (s : State) : (s.decryptBlock).replies = s.replies := by simp only [State.decryptBlock]
@[simp] theorem State.decryptBlock_countdown (s : State) : (s.decryptBlock).countdown = s.countdown := by simp only [State.decryptBlock]
@[simp] theorem State.decryptBlock_draws (s : State) : (s.decryptBlock).draws = s.draws := by simp only [State.decryptBlock]

/-- Clearing twice is clearing once. -/
@[simp] theorem State.cleared_cleared (s : State) : s.cleared.cleared = s.cleared := rfl

/-- Recording an error is a change of ERR alone. -/
theorem State.raise_eq (s : State) (code : ErrCode) :
    s.raise code = { s with err := if s.err = .none then code else s.err } := by
  unfold State.raise
  split <;> rfl

end Sys2Proof.Machine
end

