-- ==== Sys2Proof/Laws/Ops.lean ====
section
/-! SUPPORT. The state matrix's small laws, and once for all what the shared operation `command` can answer. -/

namespace Sys2Proof.Machine

/-! ## The state matrix -/

@[simp] theorem Column.get_ofFn (f : Fin 4 → Byte) (r : Fin 4) : (Column.ofFn f).get r = f r := by
  fin_cases r <;> rfl

@[simp] theorem Block.get_ofFn (f : Fin 4 → Fin 4 → Byte) (r c : Fin 4) : (Block.ofFn f).get r c = f r c := by
  fin_cases c <;> fin_cases r <;> rfl

theorem Column.ext_get {a b : Column} (h : ∀ r, a.get r = b.get r) : a = b := by
  cases a; cases b
  exact Column.mk.injEq .. ▸ ⟨h 0, h 1, h 2, h 3⟩

/-- Two matrices with the same bytes are equal. -/
theorem Block.ext_get {S T : Block} (h : ∀ r c, S.get r c = T.get r c) : S = T := by
  cases S; cases T
  exact Block.mk.injEq .. ▸ ⟨Column.ext_get fun r => h r 0, Column.ext_get fun r => h r 1,
    Column.ext_get fun r => h r 2, Column.ext_get fun r => h r 3⟩

@[simp] theorem Column.get_ofWord (v : Word) (r : Fin 4) : (Column.ofWord v).get r = wbyte v r := Column.get_ofFn _ r

theorem Block.get_setCol_same (S : Block) (c r : Fin 4) (v : Column) : (S.setCol c v).get r c = v.get r := by
  fin_cases c <;> rfl

theorem Block.get_setCol_other (S : Block) {c d : Fin 4} (r : Fin 4) (v : Column) (h : d ≠ c) :
    (S.setCol c v).get r d = S.get r d := by
  fin_cases c <;> fin_cases d <;> first | rfl | exact absurd rfl h

/-! ## What becomes of a command -/

theorem due_iff (s : State) (c : Instr) : s.due c = true ↔ s.Due c := decide_eq_true_iff

theorem busy_of_pend {s : State} {d : Instr} (h : s.pend = some d) : s.busy = true := by simp [State.busy, h]

/-- A due command completes: its writes land and the core is idle. -/
theorem command_due {c : Instr} {failed : Option ErrCode} {done s : State} (h : s.Due c) :
    command c failed done s = .next done.finish := by
  simp only [command, (due_iff s c).mpr h, if_true]

/-- A command presented while another runs is turned away. -/
theorem command_busy {c d : Instr} {failed : Option ErrCode} {done s : State} (h : s.pend = some d) (hn : ¬ s.Due c) :
    command c failed done s = .next (s.raise .busy) := by
  simp [command, due_iff, hn, busy_of_pend h]

/-- A command presented to the idle core is checked: the first failing check's error is recorded, or it is accepted. -/
theorem command_idle {c : Instr} {failed : Option ErrCode} {done s : State} (h : s.pend = none) :
    command c failed done s =
      .next (match failed with
        | some code => s.raise code
        | none => s.accept c) := by
  have hn : ¬ s.Due c := by simp [State.Due, h]
  cases failed <;> simp [command, due_iff, hn, State.busy, h]

/-- `command` always answers a next state, one of these four. -/
theorem command_cases {c : Instr} {failed : Option ErrCode} {done s t : State} (h : command c failed done s = .next t) :
    (s.Due c ∧ t = done.finish) ∨ (¬ s.Due c ∧ s.pend ≠ none ∧ t = s.raise .busy) ∨
      (s.pend = none ∧ ∃ code, failed = some code ∧ t = s.raise code) ∨
      (s.pend = none ∧ failed = none ∧ t = s.accept c) := by
  by_cases hd : s.Due c
  · exact .inl ⟨hd, by simpa [command_due hd] using h.symm⟩
  · cases hp : s.pend with
    | some d => exact .inr (.inl ⟨hd, by simp, by simpa [command_busy hp hd] using h.symm⟩)
    | none =>
      rw [command_idle hp] at h
      cases failed with
      | some code => exact .inr (.inr (.inl ⟨rfl, code, rfl, by simpa using h.symm⟩))
      | none => exact .inr (.inr (.inr ⟨rfl, rfl, by simpa using h.symm⟩))

/-! ## What the meanings are -/

/-- The first failing check of a command (60_exceptions.md R219), as its meaning passes it to `command`. -/
def State.failedCheck (s : State) : Instr → Option ErrCode
  | .keyexp => s.configCheck
  | .addrk i | .encrnd i | .encfin i | .decrnd i | .decfin i => s.roundCheck i
  | .encblk | .decblk => s.keyCheck
  | .nop | .clrerr | .subb | .shrow | .mixcol | .isubb | .ishrow | .imixcol => none
  | .gfmul _ _ | .sbox _ | .isbox _ => none

/-- The writes of a command at its completion, as its meaning passes them to `command`. -/
def State.completed (s : State) : Instr → State
  | .nop => s
  | .keyexp => s.expandKey
  | .clrerr => { s with err := .none }
  | .addrk i => s.setSt (addRoundKey s.st (roundKey s.ks i))
  | .subb => s.setSt (subBytes s.st)
  | .shrow => s.setSt (shiftRows s.st)
  | .mixcol => s.setSt (mixColumns s.st)
  | .encrnd i => s.setSt (encRound s.ks s.st i)
  | .encfin i => s.setSt (encFinal s.ks s.st i)
  | .encblk => s.encryptBlock
  | .isubb => s.setSt (invSubBytes s.st)
  | .ishrow => s.setSt (invShiftRows s.st)
  | .imixcol => s.setSt (invMixColumns s.st)
  | .decrnd i => s.setSt (decRound s.ks s.st i)
  | .decfin i => s.setSt (decFinal s.ks s.st i)
  | .decblk => s.decryptBlock
  | .gfmul a b => s.setResult (gmul a b)
  | .sbox a => s.setResult (subByte a)
  | .isbox a => s.setResult (invSubByte a)

/-- Every meaning is `command` with the command's own checks and writes. -/
theorem exec_eq_command (c : Instr) (s : State) : exec c s = command c (s.failedCheck c) (s.completed c) s := by
  cases c <;> rfl

/-- A state admits a command exactly when none of its checks fails. -/
theorem admits_iff (s : State) (c : Instr) : s.admits c = true ↔ s.failedCheck c = none := by
  cases c <;> simp [State.admits, State.failedCheck, State.configCheck, State.keyCheck, State.roundCheck] <;>
    cases s.ksv <;> simp

/-- `exec` always answers a next state, one of these four. -/
theorem exec_cases {c : Instr} {s t : State} (h : exec c s = .next t) :
    (s.Due c ∧ t = (s.completed c).finish) ∨ (¬ s.Due c ∧ s.pend ≠ none ∧ t = s.raise .busy) ∨
      (s.pend = none ∧ ∃ code, s.failedCheck c = some code ∧ t = s.raise code) ∨
      (s.pend = none ∧ s.failedCheck c = none ∧ t = s.accept c) :=
  command_cases (exec_eq_command c s ▸ h)

/-- A due command completes with its writes. -/
theorem exec_due {c : Instr} {s : State} (h : s.Due c) : exec c s = .next (s.completed c).finish := by
  rw [exec_eq_command, command_due h]

/-- No meaning faults or refuses. -/
theorem exec_next (c : Instr) (s : State) : ∃ t, exec c s = .next t := by
  rw [exec_eq_command]
  by_cases hd : s.Due c
  · exact ⟨_, command_due hd⟩
  · cases hp : s.pend with
    | some d => exact ⟨_, command_busy hp hd⟩
    | none => exact ⟨_, command_idle hp⟩

end Sys2Proof.Machine
end

