-- ==== Sys2Proof/Laws/PerInstr.lean ====
section
/-! SUPPORT. The per-instruction family EncodedRow: the word of a command matches the command's own row, `(v & mask) == match` (30_encoding.md R74). -/

namespace Sys2Proof.Laws.EncodedRow

/-- The word of a command matches its row. -/
def Statement (i : Instr) : Prop := encode i &&& i.form.mask = i.opcode.setWidth 32

/-- The proof for every command: bit by bit. -/
theorem of_fields (b a : Byte) (r : BitVec 4) (o : Byte) (f : Form)
    (hb : f = .bytes ∨ b = 0#8) (ha : f = .bytes ∨ f = .byte ∨ a = 0#8) (hr : f = .round ∨ r = 0#4) :
    (b ++ a ++ 0#4 ++ r ++ o) &&& f.mask = o.setWidth 32 := by
  apply BitVec.eq_of_getElem_eq
  intro j hj
  simp only [BitVec.getElem_and, BitVec.getElem_append, BitVec.getElem_setWidth]
  cases f <;> simp only [reduceCtorEq, false_or, true_or, or_true] at hb ha hr <;> subst_vars <;>
    (simp only [Form.mask]; interval_cases j <;> simp)

theorem nop : Statement .nop := of_fields _ _ _ _ _ (by simp [Instr.form, Instr.bBits]) (by simp [Instr.form, Instr.aBits]) (by simp [Instr.form, Instr.rndBits])

theorem keyexp : Statement .keyexp := of_fields _ _ _ _ _ (by simp [Instr.form, Instr.bBits]) (by simp [Instr.form, Instr.aBits]) (by simp [Instr.form, Instr.rndBits])

theorem clrerr : Statement .clrerr := of_fields _ _ _ _ _ (by simp [Instr.form, Instr.bBits]) (by simp [Instr.form, Instr.aBits]) (by simp [Instr.form, Instr.rndBits])

theorem addrk (i : Nat) : Statement (.addrk i) := of_fields _ _ _ _ _ (by simp [Instr.form, Instr.bBits]) (by simp [Instr.form, Instr.aBits]) (by simp [Instr.form, Instr.rndBits])

theorem subb : Statement .subb := of_fields _ _ _ _ _ (by simp [Instr.form, Instr.bBits]) (by simp [Instr.form, Instr.aBits]) (by simp [Instr.form, Instr.rndBits])

theorem shrow : Statement .shrow := of_fields _ _ _ _ _ (by simp [Instr.form, Instr.bBits]) (by simp [Instr.form, Instr.aBits]) (by simp [Instr.form, Instr.rndBits])

theorem mixcol : Statement .mixcol := of_fields _ _ _ _ _ (by simp [Instr.form, Instr.bBits]) (by simp [Instr.form, Instr.aBits]) (by simp [Instr.form, Instr.rndBits])

theorem encrnd (i : Nat) : Statement (.encrnd i) := of_fields _ _ _ _ _ (by simp [Instr.form, Instr.bBits]) (by simp [Instr.form, Instr.aBits]) (by simp [Instr.form, Instr.rndBits])

theorem encfin (i : Nat) : Statement (.encfin i) := of_fields _ _ _ _ _ (by simp [Instr.form, Instr.bBits]) (by simp [Instr.form, Instr.aBits]) (by simp [Instr.form, Instr.rndBits])

theorem encblk : Statement .encblk := of_fields _ _ _ _ _ (by simp [Instr.form, Instr.bBits]) (by simp [Instr.form, Instr.aBits]) (by simp [Instr.form, Instr.rndBits])

theorem isubb : Statement .isubb := of_fields _ _ _ _ _ (by simp [Instr.form, Instr.bBits]) (by simp [Instr.form, Instr.aBits]) (by simp [Instr.form, Instr.rndBits])

theorem ishrow : Statement .ishrow := of_fields _ _ _ _ _ (by simp [Instr.form, Instr.bBits]) (by simp [Instr.form, Instr.aBits]) (by simp [Instr.form, Instr.rndBits])

theorem imixcol : Statement .imixcol := of_fields _ _ _ _ _ (by simp [Instr.form, Instr.bBits]) (by simp [Instr.form, Instr.aBits]) (by simp [Instr.form, Instr.rndBits])

theorem decrnd (i : Nat) : Statement (.decrnd i) := of_fields _ _ _ _ _ (by simp [Instr.form, Instr.bBits]) (by simp [Instr.form, Instr.aBits]) (by simp [Instr.form, Instr.rndBits])

theorem decfin (i : Nat) : Statement (.decfin i) := of_fields _ _ _ _ _ (by simp [Instr.form, Instr.bBits]) (by simp [Instr.form, Instr.aBits]) (by simp [Instr.form, Instr.rndBits])

theorem decblk : Statement .decblk := of_fields _ _ _ _ _ (by simp [Instr.form, Instr.bBits]) (by simp [Instr.form, Instr.aBits]) (by simp [Instr.form, Instr.rndBits])

theorem gfmul (a b : Byte) : Statement (.gfmul a b) := of_fields _ _ _ _ _ (by simp [Instr.form, Instr.bBits]) (by simp [Instr.form, Instr.aBits]) (by simp [Instr.form, Instr.rndBits])

theorem sbox (a : Byte) : Statement (.sbox a) := of_fields _ _ _ _ _ (by simp [Instr.form, Instr.bBits]) (by simp [Instr.form, Instr.aBits]) (by simp [Instr.form, Instr.rndBits])

theorem isbox (a : Byte) : Statement (.isbox a) := of_fields _ _ _ _ _ (by simp [Instr.form, Instr.bBits]) (by simp [Instr.form, Instr.aBits]) (by simp [Instr.form, Instr.rndBits])

end Sys2Proof.Laws.EncodedRow
end

