-- ==== Sys2Proof/Laws/Step.lean ====
section
/-! SUPPORT. Once for all what a step can do: a completion, an empty slot, or one event of the host. -/

namespace Sys2Proof.Machine

/-! ## Which step it is -/

theorem step_due {s : State} {c : Instr} (hr : s.rst = false) (h : s.Due c) : step s = exec c s := by
  simp [step, advance, hr, h.1, h.2]

theorem step_idle_empty {s : State} (hr : s.rst = false) (hp : s.pend = none) (hi : s.inbox = []) : step s = .next s := by
  simp [step, advance, hr, hp, hostSlot, hi]

theorem step_running_empty {s : State} {c : Instr} {n : Nat} (hr : s.rst = false) (hp : s.pend = some c)
    (hc : s.countdown = n + 1) (hi : s.inbox = []) : step s = .next { s with countdown := n } := by
  simp [step, advance, hr, hp, hc, hostSlot, hi]

theorem step_reset_empty {s : State} (hr : s.rst = true) (hi : s.inbox = []) : step s = .next s.cleared := by
  simp [step, advance, hr, hostSlot, hi]

theorem step_idle_event {s : State} {e : HostEvent} {rest : List HostEvent} (h : s.IdleNext e rest) :
    step s = hostEvent e { s with inbox := rest } := by
  simp [step, advance, h.1, h.2.1, hostSlot, h.2.2]

theorem step_running_event {s : State} {c : Instr} {n : Nat} {e : HostEvent} {rest : List HostEvent}
    (h : s.RunningNext c n e rest) : step s = hostEvent e { s with inbox := rest, countdown := n } := by
  simp [step, advance, h.1, h.2.1, h.2.2.1, hostSlot, h.2.2.2]

theorem step_reset_event {s : State} {e : HostEvent} {rest : List HostEvent} (hr : s.rst = true)
    (hi : s.inbox = e :: rest) : step s = hostEvent e { s.cleared with inbox := rest } := by
  simp [step, advance, hr, hostSlot, hi]

/-- Every step is one of these seven. -/
theorem step_shape (s : State) :
    (∃ c, s.rst = false ∧ s.Due c ∧ step s = exec c s) ∨
    (s.rst = false ∧ s.pend = none ∧ s.inbox = [] ∧ step s = .next s) ∨
    (∃ c n, s.rst = false ∧ s.pend = some c ∧ s.countdown = n + 1 ∧ s.inbox = [] ∧
      step s = .next { s with countdown := n }) ∨
    (s.rst = true ∧ s.inbox = [] ∧ step s = .next s.cleared) ∨
    (∃ e rest, s.IdleNext e rest ∧ step s = hostEvent e { s with inbox := rest }) ∨
    (∃ c n e rest, s.RunningNext c n e rest ∧ step s = hostEvent e { s with inbox := rest, countdown := n }) ∨
    (∃ e rest, s.rst = true ∧ s.inbox = e :: rest ∧ step s = hostEvent e { s.cleared with inbox := rest }) := by
  have inboxes : s.inbox = [] ∨ ∃ e rest, s.inbox = e :: rest := by cases s.inbox <;> simp
  have pends : s.pend = none ∨ ∃ c, s.pend = some c := by cases s.pend <;> simp
  have counts : s.countdown = 0 ∨ ∃ n, s.countdown = n + 1 := by cases s.countdown <;> simp
  rcases Bool.eq_false_or_eq_true s.rst with hr | hr
  · rcases inboxes with hi | ⟨e, rest, hi⟩
    · exact .inr (.inr (.inr (.inl ⟨hr, hi, step_reset_empty hr hi⟩)))
    · exact .inr (.inr (.inr (.inr (.inr (.inr ⟨e, rest, hr, hi, step_reset_event hr hi⟩)))))
  · rcases pends with hp | ⟨c, hp⟩
    · rcases inboxes with hi | ⟨e, rest, hi⟩
      · exact .inr (.inl ⟨hr, hp, hi, step_idle_empty hr hp hi⟩)
      · exact .inr (.inr (.inr (.inr (.inl ⟨e, rest, ⟨hr, hp, hi⟩, step_idle_event ⟨hr, hp, hi⟩⟩))))
    · rcases counts with hc | ⟨n, hc⟩
      · exact .inl ⟨c, hr, ⟨hp, hc⟩, step_due hr ⟨hp, hc⟩⟩
      · rcases inboxes with hi | ⟨e, rest, hi⟩
        · exact .inr (.inr (.inl ⟨c, n, hr, hp, hc, hi, step_running_empty hr hp hc hi⟩))
        · exact .inr (.inr (.inr (.inr (.inr (.inl
            ⟨c, n, e, rest, ⟨hr, hp, hc, hi⟩, step_running_event ⟨hr, hp, hc, hi⟩⟩)))))

/-! ## What an event does -/

theorem hostEvent_read {offset : BitVec 8} (h : offset.extractLsb' 0 2 = 0#2) (s : State) :
    hostEvent (readEvent offset) s = .next (busRead (regAt offset) s) := by
  simp [hostEvent, busAccess, misaligned, h]

theorem hostEvent_write {offset : BitVec 8} (h : offset.extractLsb' 0 2 = 0#2) (v : Word) (s : State) :
    hostEvent (writeEvent offset v) s = busWrite (regAt offset) v s := by
  simp [hostEvent, busAccess, misaligned, h]

/-- An event that answers a next state is a level of `rst`, an aligned read or an aligned write. -/
theorem hostEvent_cases {e : HostEvent} {s t : State} (h : hostEvent e s = .next t) :
    (∃ level, e = .rst level ∧ t = s.sampleRst level) ∨
    (∃ offset, e = readEvent offset ∧ offset.extractLsb' 0 2 = 0#2 ∧ t = busRead (regAt offset) s) ∨
    (∃ offset v, e = writeEvent offset v ∧ offset.extractLsb' 0 2 = 0#2 ∧ busWrite (regAt offset) v s = .next t) := by
  cases e with
  | rst level => exact .inl ⟨level, rfl, by simpa [hostEvent] using h.symm⟩
  | otherHost a => exact absurd h (by simp [hostEvent])
  | access a =>
    obtain ⟨offset, width, op⟩ := a
    cases width with
    | byte => exact absurd h (by simp [hostEvent, busAccess])
    | half => exact absurd h (by simp [hostEvent, busAccess])
    | word =>
      by_cases ha : offset.extractLsb' 0 2 = 0#2
      · cases op with
        | read => exact .inr (.inl ⟨offset, rfl, ha, by simpa [hostEvent_read ha] using h.symm⟩)
        | write v => exact .inr (.inr ⟨offset, v, rfl, ha, by simpa [hostEvent_write ha] using h⟩)
      · exact absurd h (by simp [hostEvent, busAccess, misaligned, ha])

/-- A read changes only the replies and the count of draws. -/
theorem busRead_eq (r : Reg) (s : State) :
    ∃ v n, busRead r s = { s with replies := v :: s.replies, draws := n } := by
  unfold busRead
  split
  · exact ⟨_, _, rfl⟩
  · split <;> exact ⟨_, _, rfl⟩

/-- A write to a running core only records BUSY, and that only for a guarded register. -/
theorem busWrite_busy {s : State} {c : Instr} (hr : s.rst = false) (hp : s.pend = some c) (r : Reg) (v : Word) :
    busWrite r v s = .next (if r.guarded then s.raise .busy else s) := by
  simp [busWrite, hr, busy_of_pend hp, writeBusy]

/-- A write to the idle core. -/
theorem busWrite_idle {s : State} (hr : s.rst = false) (hp : s.pend = none) (r : Reg) (v : Word) :
    busWrite r v s = writeIdle r v s := by
  simp [busWrite, hr, State.busy, hp]

/-- A write to a core held in reset is ignored. -/
theorem busWrite_reset {s : State} (hr : s.rst = true) (r : Reg) (v : Word) : busWrite r v s = .next s := by
  simp [busWrite, hr]

/-- A write to the idle core that answers a next state runs a decoded command, records ILLEGAL, or stores to ST, KEY, KSIZE or
KSIDX and leaves all else. -/
theorem writeIdle_cases {r : Reg} {v : Word} {s t : State} (h : writeIdle r v s = .next t) :
    (∃ i, decode v = .ok i ∧ exec i s = .next t ∧ r = .cmd) ∨ (t = s.raise .illegal ∧ r = .cmd) ∨
      t = { s with st := t.st, key := t.key, ksize := t.ksize, ksidx := t.ksidx } := by
  cases r
  case cmd =>
    simp only [writeIdle, fetchCommand] at h
    split at h
    next i hi => exact .inl ⟨i, hi, h, rfl⟩
    next => exact .inr (.inl ⟨by simpa using h.symm, rfl⟩)
  all_goals
    simp only [writeIdle, Host.Outcome.next.injEq] at h
    subst h
    exact .inr (.inr rfl)

/-! ## A step that takes an aligned access -/

theorem step_idle_write {s : State} {offset : BitVec 8} {v : Word} {rest : List HostEvent}
    (h : s.IdleNext (writeEvent offset v) rest) (ha : offset.extractLsb' 0 2 = 0#2) :
    step s = writeIdle (regAt offset) v { s with inbox := rest } := by
  rw [step_idle_event h, hostEvent_write ha]
  exact busWrite_idle (s := { s with inbox := rest }) h.1 h.2.1 _ _

theorem step_idle_read {s : State} {offset : BitVec 8} {rest : List HostEvent}
    (h : s.IdleNext (readEvent offset) rest) (ha : offset.extractLsb' 0 2 = 0#2) :
    step s = .next { s with inbox := rest, replies := s.readIdle (regAt offset) :: s.replies } := by
  rw [step_idle_event h, hostEvent_read ha]
  have hr : ({ s with inbox := rest } : State).rst ≠ true := by simp [h.1]
  have hb : ({ s with inbox := rest } : State).busy ≠ true := by simp [State.busy, h.2.1]
  unfold busRead
  rw [if_neg hr, if_neg hb]
  rfl

theorem step_running_write {s : State} {c : Instr} {n : Nat} {offset : BitVec 8} {v : Word} {rest : List HostEvent}
    (h : s.RunningNext c n (writeEvent offset v) rest) (ha : offset.extractLsb' 0 2 = 0#2) :
    step s = .next { s with
      inbox := rest
      countdown := n
      err := if (regAt offset).guarded = true ∧ s.err = .none then .busy else s.err } := by
  rw [step_running_event h, hostEvent_write ha,
    busWrite_busy (s := { s with inbox := rest, countdown := n }) h.1 h.2.1]
  cases (regAt offset).guarded <;> simp [State.raise_eq]

theorem step_running_read {s : State} {c : Instr} {n : Nat} {offset : BitVec 8} {rest : List HostEvent}
    (h : s.RunningNext c n (readEvent offset) rest) (ha : offset.extractLsb' 0 2 = 0#2) :
    step s = .next { s with
      inbox := rest
      countdown := n
      replies := s.readBusy ({ s with inbox := rest, countdown := n } : State).draw (regAt offset) :: s.replies
      draws := s.draws + 1 } := by
  rw [step_running_event h, hostEvent_read ha]
  have hr : ({ s with inbox := rest, countdown := n } : State).rst ≠ true := by simp [h.1]
  have hb : ({ s with inbox := rest, countdown := n } : State).busy = true := by simp [State.busy, h.2.1]
  unfold busRead
  rw [if_neg hr, if_pos hb]
  rfl

/-! ## A poll -/

/-- A STATUS word shows BUSY in bit 0. -/
theorem statusLayout_busy (nr : BitVec 4) (err : ErrCode) (ksv busy : Bool) :
    (statusLayout nr err ksv busy).getLsbD 0 = busy := by
  unfold statusLayout
  rw [BitVec.getLsbD_append]
  cases busy <;> rfl

/-- A poll while a command runs reads BUSY = 1. -/
theorem statusBusy_busy (s : State) (d : Word) : (s.statusBusy d).getLsbD 0 = true := statusLayout_busy ..

/-- A poll of the idle core reads BUSY = 0. -/
theorem statusIdle_busy {s : State} (h : s.pend = none) : s.statusIdle.getLsbD 0 = false :=
  (statusLayout_busy ..).trans (by simp [State.busy, h])

/-! ## Runs -/

/-- A run begins with a step. -/
theorem Core_run_next (M : Host.Core) {s t : M.State} (h : M.step s = .next t) (k : Nat) : M.run (k + 1) s = M.run k t := by
  simp only [Host.Core.run, h]

/-- A run ends with a step. -/
theorem Core_run_snoc (M : Host.Core) {s t u : M.State} {k : Nat} (h : M.run k s = .next t) (h' : M.step t = .next u) :
    M.run (k + 1) s = .next u := by
  induction k generalizing s with
  | zero =>
    have e : s = t := by simpa only [Host.Core.run, Host.Outcome.next.injEq] using h
    exact e ▸ Core_run_next M h' 0
  | succ k ih =>
    cases hs : M.step s with
    | next s' => rw [Core_run_next M hs]; exact ih (by rw [← h, Core_run_next M hs])
    | fault r => simp only [Host.Core.run, hs] at h; cases h
    | refused r => simp only [Host.Core.run, hs] at h; cases h

/-- A run of the core begins with a step. -/
theorem run_next {s t : State} (h : step s = .next t) (k : Nat) :
    Host.Core.run Sys2Proof.core (k + 1) s = Host.Core.run Sys2Proof.core k t :=
  @Core_run_next Sys2Proof.core s t h k

/-- A run of the core ends with a step. -/
theorem run_snoc {s t u : State} {k : Nat} (h : Host.Core.run Sys2Proof.core k s = .next t) (h' : step t = .next u) :
    Host.Core.run Sys2Proof.core (k + 1) s = .next u :=
  @Core_run_snoc Sys2Proof.core s t u k h h'

end Sys2Proof.Machine
end

