-- ==== Sys2Proof/Tests/Slice0.lean ====
section
/-! SUPPORT. Tests: well-formedness, decoding of words written out from the spec's encodings, one step per command on the spec's own vectors, the register window, and for each obligation with hypotheses a state that meets them. -/

namespace Sys2Proof.Tests

open Sys2Proof.Machine

/-! ## Helpers -/

/-- The state a step answers, if it answers one. -/
def next? (r : Result) : Option State :=
  match r with
  | .next t => some t
  | .fault _ => none
  | .refused _ => none

/-- The refusal a step answers, if it answers one. -/
def refusal? (r : Result) : Option Refusal :=
  match r with
  | .next _ => none
  | .fault _ => none
  | .refused x => some x

/-- The command a word decodes to, if any. -/
def command? (v : Word) : Option Instr := decodeTableWord 32 v.toNat

/-- A block by its four column words DATA0..3. -/
def block (w0 w1 w2 w3 : Word) : Block := ⟨Column.ofWord w0, Column.ofWord w1, Column.ofWord w2, Column.ofWord w3⟩

/-- Reset, with `e` the host's next event. -/
def idleAt (e : HostEvent) : State := { State.reset with inbox := [e] }

/-- Reset, running `c` with one slot left, with `e` the host's next event. -/
def runningAt (c : Instr) (e : HostEvent) : State := { State.reset with pend := some c, countdown := 1, inbox := [e] }

/-- Reset, with `c` due. -/
def dueFor (c : Instr) : State := { State.reset with pend := some c }

/-- Held in reset, with `e` the host's next event. -/
def heldAt (e : HostEvent) : State := { State.reset with rst := true, inbox := [e] }

/-- ST after `c` completes on ST = `S` without a schedule. -/
def stAfter (c : Instr) (S : Block) : Option Block :=
  (next? (exec c { dueFor c with st := S })).map (·.st)

/-- RESULT after `c` completes. -/
def resultAfter (c : Instr) : Option Byte := (next? (exec c (dueFor c))).map (·.result)

/-- The key of V-KAT-1 and V-KE-128, before KEYEXP. -/
def key128 : State :=
  { dueFor .keyexp with key := #v[0x2b7e1516#32, 0x28aed2a6#32, 0xabf71588#32, 0x09cf4f3c#32, 0#32, 0#32, 0#32, 0#32] }

/-- The key of V-KE-192 and V-KE-256, before KEYEXP with the given KSIZE. -/
def keyCount (ksize : BitVec 2) : State :=
  { dueFor .keyexp with
    ksize := ksize
    key := #v[0x00010203#32, 0x04050607#32, 0x08090a0b#32, 0x0c0d0e0f#32, 0x10111213#32, 0x14151617#32, 0x18191a1b#32,
      0x1c1d1e1f#32] }

/-- A schedule word after KEYEXP completes. -/
def ksAfter (s : State) (n : Nat) : Option Word := (next? (exec .keyexp s)).map fun t => ksWord t.ks n

/-- ST after `c` completes on ST = `S` under the V-KE-128 schedule. -/
def stUnder128 (c : Instr) (S : Block) : Option Block :=
  (next? (exec c { key128.expandKey with pend := some c, st := S })).map (·.st)

/-- What a read of `offset` by the idle core returns. -/
def readIdleAt (offset : BitVec 8) (s : State) : Option (List Word) :=
  (next? (step { s with inbox := [readEvent offset] })).map (·.replies)

/-- STATUS.ERR after a write to CMD by the core of `s`. -/
def errAfter (v : Word) (s : State) : Option ErrCode :=
  (next? (step { s with inbox := [writeEvent 0x04#8 v] })).map (·.err)

/-- A state with the V-KE-128 descriptors KSV = 1, NR = 10. -/
def keyed : State := { State.reset with ksv := true, nr := 10#4 }

/-! ## Well-formed and ill-formed commands (R72: i is 0..15) -/

theorem test_wellFormed_bounds :
    (Instr.addrk 15).wellFormed && (Instr.encrnd 15).wellFormed && (Instr.encfin 15).wellFormed &&
      (Instr.decrnd 15).wellFormed && (Instr.decfin 0).wellFormed && (Instr.gfmul 0xFF#8 0xFF#8).wellFormed = true := by decide

theorem test_illFormed_addrk : ¬ (Instr.addrk 16).WellFormed := by decide
theorem test_illFormed_encrnd : ¬ (Instr.encrnd 16).WellFormed := by decide
theorem test_illFormed_encfin : ¬ (Instr.encfin 16).WellFormed := by decide
theorem test_illFormed_decrnd : ¬ (Instr.decrnd 16).WellFormed := by decide
theorem test_illFormed_decfin : ¬ (Instr.decfin 16).WellFormed := by decide

/-! ## Decoding: every constructor's word, `OP | i<<8 | a<<16 | b<<24` (R70, R73, R77) -/

theorem test_decode_nop : command? 0x00000000#32 = some .nop := by decide
theorem test_decode_keyexp : command? 0x00000001#32 = some .keyexp := by decide
theorem test_decode_clrerr : command? 0x00000002#32 = some .clrerr := by decide
theorem test_decode_addrk : command? 0x00000A10#32 = some (.addrk 10) := by decide
theorem test_decode_subb : command? 0x00000011#32 = some .subb := by decide
theorem test_decode_shrow : command? 0x00000012#32 = some .shrow := by decide
theorem test_decode_mixcol : command? 0x00000013#32 = some .mixcol := by decide
theorem test_decode_encrnd : command? 0x00000114#32 = some (.encrnd 1) := by decide
theorem test_decode_encfin : command? 0x00000E15#32 = some (.encfin 14) := by decide
theorem test_decode_encblk : command? 0x00000018#32 = some .encblk := by decide
theorem test_decode_isubb : command? 0x00000021#32 = some .isubb := by decide
theorem test_decode_ishrow : command? 0x00000022#32 = some .ishrow := by decide
theorem test_decode_imixcol : command? 0x00000023#32 = some .imixcol := by decide
theorem test_decode_decrnd : command? 0x00000D24#32 = some (.decrnd 13) := by decide
theorem test_decode_decfin : command? 0x00000025#32 = some (.decfin 0) := by decide
theorem test_decode_decblk : command? 0x00000028#32 = some .decblk := by decide
theorem test_decode_gfmul : command? 0x83570030#32 = some (.gfmul 0x57#8 0x83#8) := by decide
theorem test_decode_sbox : command? 0x00530031#32 = some (.sbox 0x53#8) := by decide
theorem test_decode_isbox : command? 0x00ED0032#32 = some (.isbox 0xED#8) := by decide

/-- Words of V-SBOX, V-KE-ERR, V-ENC-ERR, V-DEC-ERR and V-CTL that are illegal, and a neighbour of each form's mask. -/
theorem test_decode_illegal :
    [0x01530031#32, 0x00530131#32, 0x00000101#32, 0x00001010#32, 0x00000111#32, 0x00000029#32, 0x000000FF#32, 0x00000003#32,
      0x00000102#32, 0x00010010#32, 0x83571030#32, 0x80000000#32].all (fun v => (command? v).isNone) = true := by decide

theorem test_encode_words :
    encode (.addrk 15) = 0x00000F10#32 ∧ encode (.gfmul 0x57#8 0x83#8) = 0x83570030#32 ∧ encode (.isbox 0xED#8) = 0x00ED0032#32 := by
  decide

/-! ## One step: completions on the spec's vectors (95_test_vectors.md) -/

/-- V-CTL: nothing but PEND changes. -/
theorem test_nop_completes : next? (step { dueFor .nop with err := .illegal }) = some { State.reset with err := .illegal } := by decide

/-- R201's example: ERR = 4 becomes 0. -/
theorem test_clrerr_clears : (next? (step { dueFor .clrerr with err := .illegal })).map (·.err) = some .none := by decide

/-- V-KE-128: words 4 and 43. -/
theorem test_keyexp_128 : ksAfter key128 4 = some 0xa0fafe17#32 ∧ ksAfter key128 43 = some 0xb6630ca6#32 := by decide +kernel

/-- V-KE-192 word 51, V-KE-256 words 12 (SubWord alone) and 59. -/
theorem test_keyexp_long :
    ksAfter (keyCount 1#2) 51 = some 0xe3a41d5d#32 ∧ ksAfter (keyCount 2#2) 12 = some 0x1651a8cd#32 ∧
      ksAfter (keyCount 2#2) 59 = some 0x6d68de36#32 := by decide +kernel

/-- R146's example. -/
theorem test_addrk : stUnder128 (.addrk 0) (block 0x3243f6a8 0x885a308d 0x313198a2 0xe0370734) =
    some (block 0x193de3be 0xa0f4e22b 0x9ac68d2a 0xe9f84808) := by decide +kernel

/-- R147's example. -/
theorem test_subb : stAfter .subb (block 0x193de3be 0xa0f4e22b 0x9ac68d2a 0xe9f84808) =
    some (block 0xd42711ae 0xe0bf98f1 0xb8b45de5 0x1e415230) := by decide +kernel

/-- V-ENC-OPS: row r rotates left by r. -/
theorem test_shrow : stAfter .shrow (block 0x00010203 0x04050607 0x08090a0b 0x0c0d0e0f) =
    some (block 0x00050a0f 0x04090e03 0x080d0207 0x0c01060b) := by decide +kernel

/-- V-ENC-OPS: four columns. -/
theorem test_mixcol : stAfter .mixcol (block 0xdb135345 0xf20a225c 0xd4d4d4d5 0x2d26314c) =
    some (block 0x8e4da1bc 0x9fdc589d 0xd5d5d7d6 0x4d7ebdf8) := by decide +kernel

/-- R150's example. -/
theorem test_encrnd : stUnder128 (.encrnd 1) (block 0x193de3be 0xa0f4e22b 0x9ac68d2a 0xe9f84808) =
    some (block 0xa49c7ff2 0x689f352b 0x6b5bea43 0x026a5049) := by decide +kernel

/-- R151's example. -/
theorem test_encfin : stUnder128 (.encfin 10) (block 0xeb40f21e 0x592e3884 0x8ba113e7 0x1bc342d2) =
    some (block 0x3925841d 0x02dc09fb 0xdc118597 0x196a0b32) := by decide +kernel

/-- V-KAT-1. -/
theorem test_encblk : stUnder128 .encblk (block 0x3243f6a8 0x885a308d 0x313198a2 0xe0370734) =
    some (block 0x3925841d 0x02dc09fb 0xdc118597 0x196a0b32) := by decide +kernel

/-- V-RT, 256-bit key. -/
theorem test_encblk_256 :
    (next? (exec .encblk { (keyCount 2#2).expandKey with
      pend := some .encblk, st := block 0x00112233 0x44556677 0x8899aabb 0xccddeeff })).map (·.st) =
      some (block 0x8ea2b7ca 0x516745bf 0xeafc4990 0x4b496089) := by decide +kernel

/-- V-DEC-TRACE, round 9. -/
theorem test_isubb : stAfter .isubb (block 0xe9098972 0xcb31075f 0x3d327d94 0xaf2e2cb5) =
    some (block 0xeb40f21e 0x592e3884 0x8ba113e7 0x1bc342d2) := by decide +kernel

/-- V-DEC-OPS: row r rotates right by r. -/
theorem test_ishrow : stAfter .ishrow (block 0x00010203 0x04050607 0x08090a0b 0x0c0d0e0f) =
    some (block 0x000d0a07 0x04010e0b 0x0805020f 0x0c090603) := by decide +kernel

/-- V-DEC-OPS: the first column is db135345 again; the others are V-ENC-OPS read backwards. -/
theorem test_imixcol : stAfter .imixcol (block 0x8e4da1bc 0x9fdc589d 0xd5d5d7d6 0x4d7ebdf8) =
    some (block 0xdb135345 0xf20a225c 0xd4d4d4d5 0x2d26314c) := by decide +kernel

/-- R179's example. -/
theorem test_decrnd : stUnder128 (.decrnd 9) (block 0xe9317db5 0xcb322c72 0x3d2e895f 0xaf090794) =
    some (block 0x876e46a6 0xf24ce78c 0x4d904ad8 0x97ecc395) := by decide +kernel

/-- R180's example. -/
theorem test_decfin : stUnder128 (.decfin 0) (block 0xd4bf5d30 0xe0b452ae 0xb84111f1 0x1e2798e5) =
    some (block 0x3243f6a8 0x885a308d 0x313198a2 0xe0370734) := by decide +kernel

/-- V-KAT-1, back. -/
theorem test_decblk : stUnder128 .decblk (block 0x3925841d 0x02dc09fb 0xdc118597 0x196a0b32) =
    some (block 0x3243f6a8 0x885a308d 0x313198a2 0xe0370734) := by decide +kernel

/-- V-GF. -/
theorem test_gfmul :
    resultAfter (.gfmul 0x57#8 0x83#8) = some 0xc1#8 ∧ resultAfter (.gfmul 0x80#8 0x02#8) = some 0x1b#8 ∧
      resultAfter (.gfmul 0xff#8 0xff#8) = some 0x13#8 ∧ resultAfter (.gfmul 0x53#8 0xca#8) = some 0x01#8 := by decide +kernel

/-- V-SBOX. -/
theorem test_sbox :
    resultAfter (.sbox 0x00#8) = some 0x63#8 ∧ resultAfter (.sbox 0x53#8) = some 0xed#8 ∧ resultAfter (.sbox 0xff#8) = some 0x16#8 := by
  decide +kernel

/-- V-SBOX. -/
theorem test_isbox :
    resultAfter (.isbox 0x00#8) = some 0x52#8 ∧ resultAfter (.isbox 0xed#8) = some 0x53#8 ∧ resultAfter (.isbox 0xff#8) = some 0x7d#8 := by
  decide +kernel

/-! ## One step: the register window (95_test_vectors.md V-CTL) -/

theorem test_status_after_reset : readIdleAt 0x08#8 State.reset = some [0x00000000#32] := by decide
theorem test_status_with_schedule : readIdleAt 0x08#8 keyed = some [0x00000A02#32] := by decide
/-- P5: ERR = 5 with the V-KE-128 schedule. -/
theorem test_status_with_error : readIdleAt 0x08#8 { keyed with err := .busy } = some [0x00000A52#32] := by decide

theorem test_ctrl_keeps_two_bits :
    (next? (step (idleAt (writeEvent 0x00#8 0xFFFFFFFF#32)))).map (·.ksize) = some 3#2 ∧
      readIdleAt 0x00#8 { State.reset with ksize := 3#2 } = some [0x00000003#32] := by decide

theorem test_ksidx_keeps_six_bits :
    (next? (step (idleAt (writeEvent 0x40#8 0xFFFFFFFF#32)))).map (·.ksidx) = some 0x3F#6 ∧
      readIdleAt 0x40#8 { State.reset with ksidx := 0x3F#6 } = some [0x0000003F#32] := by decide

theorem test_key_is_write_only :
    (next? (step (idleAt (writeEvent 0x20#8 0x12345678#32)))).map (·.key[0]) = some 0x12345678#32 ∧
      readIdleAt 0x20#8 { State.reset with key := Vector.replicate 8 0x12345678#32 } = some [0#32] := by decide

/-- `wr DATA0, 0x00112233` puts the high byte into row 0. -/
theorem test_data_is_column_major :
    (next? (step (idleAt (writeEvent 0x10#8 0x00112233#32)))).map (·.st.c0) = some ⟨0x00#8, 0x11#8, 0x22#8, 0x33#8⟩ ∧
      readIdleAt 0x1C#8 { State.reset with st := block 0 0 0 0x00112233 } = some [0x00112233#32] := by decide

theorem test_reserved_offset_reads_zero : readIdleAt 0x48#8 keyed = some [0#32] ∧ readIdleAt 0x04#8 keyed = some [0#32] := by decide

/-- KSDATA reads 0 without a schedule, whatever KS_READABLE is. -/
theorem test_ksdata_without_schedule : (State.reset).ksData = 0#32 := by simp [State.ksData, State.reset]

/-! ## One step: errors (V-CTL, V-KE-ERR, V-ENC-ERR, V-DEC-ERR) -/

theorem test_err_illegal : errAfter 0x000000FF#32 State.reset = some .illegal ∧ errAfter 0x00000102#32 State.reset = some .illegal := by
  decide
theorem test_err_config : errAfter 0x00000001#32 { keyed with ksize := 3#2 } = some .config := by decide
theorem test_err_nokey : errAfter 0x00000010#32 State.reset = some .nokey ∧ errAfter 0x00000028#32 State.reset = some .nokey := by decide
theorem test_err_range : errAfter 0x00000B10#32 keyed = some .range ∧ errAfter 0x00000D24#32 keyed = some .range := by decide
/-- `addrk 10` is accepted with NR = 10. -/
theorem test_addrk_accepted : (next? (step { keyed with inbox := [writeEvent 0x04#8 0x00000A10#32] })).map (·.pend) =
    some (some (.addrk 10)) := by decide
/-- A write to DATA0 while a command runs is dropped and records BUSY; the command stays. -/
theorem test_err_busy : next? (step (runningAt .encblk (writeEvent 0x10#8 0xdeadbeef#32))) =
    some { State.reset with pend := some .encblk, err := .busy } := by decide
theorem test_err_sticky : errAfter 0x00000003#32 { State.reset with err := .nokey } = some .nokey := by decide

/-! ## One step: refusals, reset and the fetch -/

theorem test_refusals :
    refusal? (step (idleAt (.access ⟨0x10#8, .half, .write 0#32⟩))) = some .subWordAccess ∧
      refusal? (step (idleAt (readEvent 0x11#8))) = some .misalignedAccess ∧
      refusal? (step (idleAt (.otherHost ⟨0x08#8, .word, .read⟩))) = some .secondHost := by decide

/-- V-CTL: `rst` asserted clears the schedule descriptors, ERR and a running command. -/
theorem test_reset_clears :
    next? (step { keyed with err := .busy, pend := some .encblk, countdown := 5, inbox := [.rst true] }) =
      some { State.reset with rst := true } := by decide

/-- The fetch from reset: SUBB's word is accepted, ENCBLK's meets no schedule. -/
theorem test_fetch_word :
    (next? (step (State.reset.withFetchWord 32 0x11))).map (·.pend) = some (some .subb) ∧
      (next? (step (State.reset.withFetchWord 32 0x18))).map (·.err) = some .nokey := by decide

/-! ## Witnesses: for each obligation with hypotheses, concrete data that meet them, per clause and at the bounds -/

theorem witness_DecodeOfEncodeIsTheCommand : (Instr.addrk 15).WellFormed ∧ (Instr.decfin 0).WellFormed := by decide

theorem witness_EncodeOfDecodeIsTheWord : decode 0x00000F25#32 = .ok (.decfin 15) := by rfl

theorem witness_DecodingSelectsTheMatchingRow :
    (0xFFFFF0FF#32, 0x00000010#32) ∈ opcodeRows ∧ 0x00000F10#32 &&& 0xFFFFF0FF#32 = 0x00000010#32 ∧
      decode 0x00000F10#32 = .ok (.addrk 15) ∧
      (idleAt (writeEvent 0x04#8 0x00000029#32)).IdleNext (writeEvent 0x04#8 0x00000029#32) [] ∧
      (opcodeRows.all fun row => decide (0x00000029#32 &&& row.1 ≠ row.2)) = true :=
  ⟨by decide, by decide, rfl, by decide, by decide⟩

theorem witness_OperandsComeFromTheirFields :
    (decode 0x00000F10#32 = .ok (.addrk 15) ∧ (Instr.addrk 15).roundIndex = some 15) ∧
      decode 0xFF000030#32 = .ok (.gfmul 0x00#8 0xFF#8) ∧ decode 0x00FF0031#32 = .ok (.sbox 0xFF#8) ∧
      decode 0x00FF0032#32 = .ok (.isbox 0xFF#8) := ⟨⟨rfl, rfl⟩, rfl, rfl, rfl⟩

theorem witness_StepRunsTheDecodedCommand :
    (idleAt (writeEvent 0x04#8 0x00000011#32)).IdleNext (writeEvent 0x04#8 0x00000011#32) [] ∧
      decode 0x00000011#32 = .ok .subb := ⟨by decide, rfl⟩

theorem witness_StepCompletesOrIdles :
    ((dueFor .subb).rst = false ∧ (dueFor .subb).Due .subb) ∧
      ((fun s : State => s.rst = false ∧ s.pend = some .subb ∧ s.countdown = 0 + 1 ∧ s.inbox = [])
        { dueFor .subb with countdown := 1 }) ∧
      ((runningAt .subb (readEvent 0x08#8)).RunningNext .subb 0 (readEvent 0x08#8) [] ∧
        (readEvent 0x08#8).ordinary = true) ∧
      State.reset.Quiet ∧ (idleAt (readEvent 0x08#8)).IdleNext (readEvent 0x08#8) [] := by decide

/-- A poll of the idle core ends the host's run. -/
theorem witness_StepCompletesOrIdles_end :
    (idleAt (readEvent 0x08#8)).LastPoll { State.reset with replies := [0#32] } ∧
      (idleAt (readEvent 0x08#8)).RunOver { State.reset with replies := [0#32] } :=
  have h : (idleAt (readEvent 0x08#8)).LastPoll { State.reset with replies := [0#32] } := ⟨rfl, rfl, rfl, 0#32, rfl, by decide⟩
  ⟨h, 0, _, rfl, h⟩

/-- Reads at both ends of the window by the quiet core answer a next state. -/
theorem witness_StepCompletesOrIdles_window :
    (∃ u, step { State.reset with inbox := [readEvent (BitVec.ofNat 8 (4 * 0))] } = .next u) ∧
      (∃ u, step { State.reset with inbox := [readEvent (BitVec.ofNat 8 (4 * 63))] } = .next u) := ⟨⟨_, rfl⟩, ⟨_, rfl⟩⟩

/-- R264: a program that makes no access is not over, and a STATUS read that returns BUSY = 1 ends none. -/
theorem test_unpolled_run_is_not_over (t : State) :
    ¬ State.reset.LastPoll t ∧ ¬ (runningAt .subb (readEvent 0x08#8)).LastPoll t := by
  constructor
  · rintro ⟨-, h, -⟩
    exact nomatch h
  · rintro ⟨-, -, h, v, hv, hb⟩
    have hn : (runningAt .subb (readEvent 0x08#8)).RunningNext .subb 0 (readEvent 0x08#8) [] := by decide
    rw [Sys2Proof.Machine.step_running_read hn (by decide)] at h
    cases h
    obtain rfl : State.statusBusy _ _ = v := (List.cons.inj hv).1
    rw [Sys2Proof.Machine.statusBusy_busy] at hb
    exact nomatch hb

theorem witness_SubWordAndMisalignedAccessesAreRefused :
    (let a : Access := ⟨0x10#8, .byte, .read⟩
     (idleAt (.access a)).pend = none ∧ (idleAt (.access a)).inbox = [.access a] ∧ a.width ≠ .word) ∧
      (let a : Access := ⟨0x13#8, .word, .read⟩
       (runningAt .subb (.access a)).countdown ≠ 0 ∧ (runningAt .subb (.access a)).inbox = [.access a] ∧ a.width = .word ∧
         a.offset.extractLsb' 0 2 ≠ 0#2) := by decide

theorem witness_RaiseRecordsTheFirstErrorOnly :
    (State.reset.err = .none ∧ ErrCode.busy ≠ .none) ∧
      ({ State.reset with err := .busy } : State).err ≠ .none ∧
      step { State.reset with err := .busy } = .next { State.reset with err := .busy } := ⟨by decide, by decide, rfl⟩

/-- Each refused access, taken by the idle core, by a busy core, and in reset. -/
theorem witness_StepStopsOnlyOnMeaninglessAccesses :
    (let a : Access := ⟨0x08#8, .word, .read⟩
     (idleAt (.otherHost a)).inbox = [.otherHost a] ∧ (idleAt (.otherHost a)).pend = none) ∧
      (let a : Access := ⟨0x11#8, .half, .read⟩
       (runningAt .subb (.access a)).inbox = [.access a] ∧ (runningAt .subb (.access a)).countdown ≠ 0 ∧ a.width ≠ .word) ∧
      (let a : Access := ⟨0xFF#8, .word, .read⟩
       (heldAt (.access a)).inbox = [.access a] ∧ (heldAt (.access a)).rst = true ∧ a.width = .word ∧
         a.offset.extractLsb' 0 2 ≠ 0#2) := by decide

theorem witness_KeyexpWithReservedSizeRaisesConfig :
    ({ State.reset with ksize := 3#2 } : State).pend = none ∧ ({ State.reset with ksize := 3#2 } : State).ksize = 3#2 := by decide

theorem witness_RoundKeyCommandsWithoutScheduleRaiseNokey :
    (Instr.encblk).readsRoundKeys = true ∧ (Instr.addrk 15).readsRoundKeys = true ∧ State.reset.pend = none ∧
      State.reset.ksv = false := by decide

theorem witness_RoundIndexAboveNrRaisesRange :
    ((Instr.addrk 11).roundIndex = some 11 ∧ keyed.pend = none ∧ keyed.ksv = true ∧ keyed.nr.toNat < 11) ∧
      ((Instr.decfin 15).roundIndex = some 15 ∧
        ({ keyed with nr := 14#4 } : State).ksv = true ∧ ({ keyed with nr := 14#4 } : State).nr.toNat < 15) := by decide

theorem witness_ErroringCommandChangesOnlyErr :
    (idleAt (writeEvent 0x04#8 0x00000018#32)).IdleNext (writeEvent 0x04#8 0x00000018#32) [] ∧
      decode 0x00000018#32 = .ok .encblk ∧ (idleAt (writeEvent 0x04#8 0x00000018#32)).admits .encblk = false ∧
      (idleAt (writeEvent 0x04#8 0x00000029#32)).IdleNext (writeEvent 0x04#8 0x00000029#32) [] ∧
      decode 0x00000029#32 = .error .reservedOp := ⟨by decide, rfl, by decide, by decide, rfl⟩

/-- The same hypotheses in the obligation's own form, for a word no row matches. -/
theorem witness_ErroringCommandChangesOnlyErr_form :
    ∀ i, decode 0x00000029#32 = .ok i → (idleAt (writeEvent 0x04#8 0x00000029#32)).admits i = false :=
  fun i h => nomatch (show Except.error Illegal.reservedOp = Except.ok i from h)

theorem witness_FirstFailingCheckDecides :
    State.reset.pend = none ∧ State.reset.err = .none ∧ State.reset.admits (.addrk 0) = false ∧ keyed.pend = none ∧
      keyed.err = .none ∧ keyed.admits (.addrk 10) = true ∧ keyed.admits (.addrk 11) = false := by decide

theorem witness_WritesWhileBusyAreDropped :
    ([0x00#8, 0x04#8, 0x08#8, 0x10#8, 0x3C#8, 0x40#8, 0x44#8, 0xFC#8].all fun o =>
      decide ((runningAt .encblk (writeEvent o 1#32)).RunningNext .encblk 0 (writeEvent o 1#32) [] ∧
        o.extractLsb' 0 2 = 0#2)) = true ∧
      (idleAt (writeEvent 0x44#8 1#32)).IdleNext (writeEvent 0x44#8 1#32) [] ∧ (0x44#8).extractLsb' 0 2 = 0#2 := by decide

theorem witness_AdmittedCommandIsAccepted :
    (keyed.pend = none ∧ keyed.admits (.addrk 10) = true) ∧ (State.reset.pend = none ∧ State.reset.admits .keyexp = true) := by
  decide

/-- The completion statements ask for a due command and nothing else (KEYEXP: also a legal KSIZE). -/
theorem witness_completions :
    ([.nop, .keyexp, .clrerr, .addrk 0, .addrk 14, .subb, .shrow, .mixcol, .encrnd 1, .encfin 14, .encblk, .isubb, .ishrow, .imixcol,
      .decrnd 13, .decfin 0, .decblk, .gfmul 0x57#8 0x83#8, .sbox 0xFF#8, .isbox 0x00#8].all fun c =>
        decide ((dueFor c).Due c)) = true := by decide

theorem witness_KeyexpCompletes :
    ((keyCount 0#2).Due .keyexp ∧ (keyCount 0#2).ksize = 0#2) ∧ ((keyCount 1#2).Due .keyexp ∧ (keyCount 1#2).ksize = 1#2) ∧
      ((keyCount 2#2).Due .keyexp ∧ (keyCount 2#2).ksize = 2#2) := by decide

theorem witness_CompletedScheduleHasItsShape :
    (keyCount 1#2).Due .keyexp ∧ (keyCount 1#2).ksize ≠ 3#2 ∧ 5 < nkOf (keyCount 1#2).ksize ∧ 5 < 8 ∧
      4 * (nrOf (keyCount 1#2).ksize + 1) ≤ 52 ∧ 52 < 60 ∧ 59 < 60 := by decide

/-- The frames: each group has a command, and `exec` answers a next state. -/
theorem witness_StateCommandsWriteStOnly : (Instr.subb).writesSt = true ∧ ∃ t, exec .subb (dueFor .subb) = .next t :=
  ⟨rfl, _, rfl⟩

theorem witness_ScalarCommandsWriteResultOnly :
    (∃ a, Instr.sbox 0x53#8 = .sbox a) ∧ ∃ t, exec (.sbox 0x53#8) (dueFor (.sbox 0x53#8)) = .next t := ⟨⟨_, rfl⟩, _, rfl⟩

theorem witness_ControlCommandsLeaveTheDatapath : ∃ t, exec .clrerr (dueFor .clrerr) = .next t := ⟨_, rfl⟩

/-- The statements about accesses by the idle core: every register's offset, at both ends of each range. -/
theorem witness_idle_accesses :
    ([0x00#8, 0x04#8, 0x08#8, 0x0C#8, 0x10#8, 0x1C#8, 0x20#8, 0x3C#8, 0x40#8, 0x44#8, 0x48#8, 0xFC#8].all fun o =>
      decide ((idleAt (readEvent o)).IdleNext (readEvent o) [] ∧ (idleAt (writeEvent o 7#32)).IdleNext (writeEvent o 7#32) [] ∧
        o.extractLsb' 0 2 = 0#2)) = true ∧ 0x48#8 ≤ 0x48#8 ∧ 0x48#8 ≤ 0xFC#8 := by decide

/-- The statements about reads and ignored writes while a command runs. -/
theorem witness_running_accesses :
    ([0x00#8, 0x04#8, 0x08#8, 0x0C#8, 0x10#8, 0x14#8, 0x18#8, 0x1C#8, 0x20#8, 0x3C#8, 0x40#8, 0x44#8, 0x48#8, 0xFC#8].all fun o =>
      decide ((runningAt .encblk (readEvent o)).RunningNext .encblk 0 (readEvent o) [] ∧
        (runningAt .encblk (writeEvent o 7#32)).RunningNext .encblk 0 (writeEvent o 7#32) [] ∧ o.extractLsb' 0 2 = 0#2)) = true := by
  decide

/-- Four loader writes in a row, DATA0 to DATA3. -/
theorem witness_LoaderIsColumnMajor :
    let b : Fin 16 → Byte := fun i => BitVec.ofNat 8 i.val
    let w := [writeEvent 0x10#8 (b 0 ++ b 1 ++ b 2 ++ b 3), writeEvent 0x14#8 (b 4 ++ b 5 ++ b 6 ++ b 7),
      writeEvent 0x18#8 (b 8 ++ b 9 ++ b 10 ++ b 11), writeEvent 0x1C#8 (b 12 ++ b 13 ++ b 14 ++ b 15)]
    ({ State.reset with inbox := w } : State).rst = false ∧ ({ State.reset with inbox := w } : State).pend = none ∧
      ({ State.reset with inbox := w } : State).inbox = w := by decide

theorem witness_ResetHoldsEveryElement :
    ((fun s : State => s.inbox = [.rst true] ∧ s.countdown ≠ 0) (runningAt .encblk (.rst true))) ∧
      ((fun s : State => s.rst = true ∧ s.inbox = []) { State.reset with rst := true }) ∧
      ((heldAt (readEvent 0xFC#8)).rst = true ∧ (heldAt (readEvent 0xFC#8)).inbox = [readEvent 0xFC#8] ∧
        (0xFC#8).extractLsb' 0 2 = 0#2) ∧
      ((heldAt (.rst false)).rst = true ∧ (heldAt (.rst false)).inbox = [.rst false]) ∧
      ((fun s : State => s.rst = false ∧ s.inbox = [.rst false] ∧ s.countdown ≠ 0) (runningAt .encblk (.rst false))) ∧
      ((fun s : State => s.rst = false ∧ s.inbox = [.rst false] ∧ s.pend = none) (idleAt (.rst false))) ∧
      ((heldAt (writeEvent 0x00#8 1#32)).rst = true ∧ (heldAt (writeEvent 0x00#8 1#32)).inbox = [writeEvent 0x00#8 1#32] ∧
        (0x00#8).extractLsb' 0 2 = 0#2) := by decide

/-- A step that changes KS: KEYEXP completing on the key of V-KE-128. -/
theorem witness_ResetHoldsEveryElement_ks : ∃ t, step key128 = .next t ∧ t.ks ≠ key128.ks :=
  ⟨key128.expandKey.finish, (Sys2Proof.Machine.step_due rfl ⟨rfl, rfl⟩).trans (Sys2Proof.Machine.exec_due ⟨rfl, rfl⟩), by decide +kernel⟩

theorem witness_RoundSequencesComputeTheCiphers : 1 ≤ nrOf 0#2 ∧ 1 ≤ nrOf 2#2 := by decide

theorem witness_RotWordAndRoundConstants : 1 ≤ 1 ∧ 1 ≤ 9 ∧ 9 < 10 := by decide

theorem witness_KeySizesAreTheTable :
    ({ State.reset with ksize := 3#2 } : State).pend = none ∧ ({ State.reset with ksize := 3#2 } : State).ksize = 3#2 ∧
      ({ State.reset with ksize := 3#2 } : State).err = .none := by decide

theorem witness_ScheduleFollowsTheRecurrence :
    (List.replicate 4 0#32).length = 4 ∧ (List.replicate 8 0#32).length = 8 ∧ 0 < 4 ∧ 4 ≤ 43 ∧ 43 < 4 * (10 + 1) ∧ 8 ≤ 12 ∧
      12 < 4 * (14 + 1) := by decide

theorem witness_StepKeepsTheInvariant : State.reset.Inv ∧ step State.reset = .next State.reset := ⟨by decide, rfl⟩

theorem witness_KeyScheduleIsImmutable : step (dueFor .nop) = .next State.reset := rfl

theorem witness_KeyReachesNothingButTheSchedule :
    ¬ (idleAt (readEvent 0x20#8)).Due .keyexp ∧ (∃ t, step (idleAt (readEvent 0x20#8)) = .next t) ∧
      step (idleAt (readEvent 0x21#8)) = .refused .misalignedAccess ∧
      (¬ (runningAt .keyexp (readEvent 0x10#8)).Due .keyexp ∧ ∃ t, step (runningAt .keyexp (readEvent 0x10#8)) = .next t) :=
  ⟨by decide, ⟨_, rfl⟩, rfl, by decide, ⟨_, rfl⟩⟩

theorem witness_AcceptedCommandsComplete :
    (runningAt .encblk (writeEvent 0x10#8 0#32)).rst = false ∧ (runningAt .encblk (writeEvent 0x10#8 0#32)).pend = some .encblk ∧
      ((runningAt .encblk (writeEvent 0x10#8 0#32)).inbox.all HostEvent.ordinary) = true := by decide

end Sys2Proof.Tests
end

/-! # Proofs: the state (10_state.md) -/

namespace Sys2Proof.Machine

/-- Every byte of the zero column is zero. -/
@[simp] theorem Column.get_zero (r : Fin 4) : Column.zero.get r = 0#8 := by
  fin_cases r <;> rfl

/-- Every byte of the zero matrix is zero. -/
@[simp] theorem Block.get_zero (r c : Fin 4) : Block.zero.get r c = 0#8 := by
  have hcol : Block.zero.col c = Column.zero := by fin_cases c <;> rfl
  rw [Block.get, hcol, Column.get_zero]

/-- The reset state holds the elements of R34 at their reset values. -/
theorem State.reset_atReset : State.reset.AtReset :=
  ⟨rfl, rfl, rfl, rfl, rfl, rfl, rfl, rfl, rfl, rfl, rfl⟩

/-- Settles O42: the reset state is at reset, its three arrays read zero at every index, and BUSY and the code of ERR follow from
PEND and ERR. -/
theorem resetLeavesTheListedValues : Obligations.ResetLeavesTheListedValues := by
  unfold Obligations.ResetLeavesTheListedValues
  obtain ⟨hst, hkey, hks, hksv, hnr, hksize, herr, hresult, hksidx, hpend, hrctr⟩ := State.reset_atReset
  have hbusy : State.reset.busy = false := by simp [State.busy, hpend]
  have hcode : State.reset.err.code = 0#3 := by rw [herr]; rfl
  refine ⟨fun r c => ?_, fun k => ?_, fun n => ?_, hksv, hnr, hksize, hbusy, hcode, hresult, hksidx, hpend, hrctr⟩
  · rw [hst, Block.get_zero]
  · rw [hkey, Fin.getElem_fin, Vector.getElem_replicate]
  · rw [hks, Fin.getElem_fin, Vector.getElem_replicate]

end Sys2Proof.Machine

/-! # Proofs: the register window (20_memory.md) -/

namespace Sys2Proof.Machine

/-! ## Offsets and registers (R42, R44, R45) -/

/-- An aligned offset is four times a word number. -/
theorem exists_word_of_aligned {offset : BitVec 8} (ha : offset.extractLsb' 0 2 = 0#2) :
    ∃ k < 64, offset = BitVec.ofNat 8 (4 * k) := by
  have hmod : offset.toNat % 4 = 0 := by simpa using congrArg BitVec.toNat ha
  exact ⟨offset.toNat / 4, by omega, BitVec.eq_of_toNat_eq (by rw [BitVec.toNat_ofNat]; omega)⟩

/-- Above KSDATA the window holds no register. -/
theorem regAt_of_le {offset : BitVec 8} (h : 0x48#8 ≤ offset) : regAt offset = .reserved := by
  unfold regAt
  split
  case h_19 => rfl
  all_goals exact absurd h (by decide)

theorem regAt_data (c : Fin 4) : regAt (BitVec.ofNat 8 (0x10 + 4 * c.val)) = .data c := by
  fin_cases c <;> rfl

theorem regAt_key (k : Fin 8) : regAt (BitVec.ofNat 8 (0x20 + 4 * k.val)) = .key k := by
  fin_cases k <;> rfl

theorem data_aligned (c : Fin 4) : (BitVec.ofNat 8 (0x10 + 4 * c.val)).extractLsb' 0 2 = 0#2 := by
  fin_cases c <;> rfl

theorem key_aligned (k : Fin 8) : (BitVec.ofNat 8 (0x20 + 4 * k.val)).extractLsb' 0 2 = 0#2 := by
  fin_cases k <;> rfl

/-- The aligned offsets 0x20..0x3C are those of KEY. -/
theorem exists_regAt_eq_key {offset : BitVec 8} (ha : offset.extractLsb' 0 2 = 0#2) (hlo : 0x20#8 ≤ offset)
    (hhi : offset ≤ 0x3C#8) : ∃ k, regAt offset = .key k := by
  obtain ⟨k, hk, rfl⟩ := exists_word_of_aligned ha
  have hbounds : 8 ≤ k ∧ k < 16 := by constructor <;> bv_omega
  have hoff : 4 * k = 0x20 + 4 * (k - 8) := by omega
  exact ⟨⟨k - 8, by omega⟩, hoff ▸ regAt_key ⟨k - 8, by omega⟩⟩

/-- The guarded offsets of R54. -/
theorem guarded_regAt_iff {offset : BitVec 8} (ha : offset.extractLsb' 0 2 = 0#2) :
    (regAt offset).guarded = true ↔
      offset = 0x00#8 ∨ offset = 0x04#8 ∨ (0x10#8 ≤ offset ∧ offset ≤ 0x3C#8) ∨ offset = 0x40#8 := by
  by_cases hhi : 0x48#8 ≤ offset
  · simp only [regAt_of_le hhi, Reg.guarded, Bool.false_eq_true, false_iff]
    bv_omega
  · obtain ⟨k, hk, rfl⟩ := exists_word_of_aligned ha
    have hlow : k < 18 := by bv_omega
    clear ha hhi hk
    interval_cases k <;> decide

/-! ## Accesses that change little (R53, R54) -/

/-- The idle core ignores a write to a register that is not guarded. -/
theorem writeIdle_of_not_guarded {r : Reg} (hg : ¬ r.guarded = true) (v : Word) (s : State) : writeIdle r v s = .next s := by
  cases r
  case status | result | ksdata | reserved => rfl
  all_goals exact absurd rfl hg

theorem step_idle_write_of_not_guarded {s : State} {offset : BitVec 8} {v : Word} {rest : List HostEvent}
    (h : s.IdleNext (writeEvent offset v) rest) (ha : offset.extractLsb' 0 2 = 0#2)
    (hg : ¬ (regAt offset).guarded = true) : step s = .next { s with inbox := rest } := by
  rw [step_idle_write h ha, writeIdle_of_not_guarded hg]

theorem step_running_write_of_not_guarded {s : State} {c : Instr} {n : Nat} {offset : BitVec 8} {v : Word}
    {rest : List HostEvent} (h : s.RunningNext c n (writeEvent offset v) rest) (ha : offset.extractLsb' 0 2 = 0#2)
    (hg : ¬ (regAt offset).guarded = true) : step s = .next { s with inbox := rest, countdown := n } := by
  rw [step_running_write h ha, if_neg fun hboth => hg hboth.1]

/-- A read of the running core replies with some draw's `readBusy`. -/
theorem step_running_read_replies {s : State} {c : Instr} {n : Nat} {offset : BitVec 8} {rest : List HostEvent}
    (h : s.RunningNext c n (readEvent offset) rest) (ha : offset.extractLsb' 0 2 = 0#2) :
    ∃ t d, step s = .next t ∧ t.replies = s.readBusy d (regAt offset) :: s.replies :=
  ⟨_, _, step_running_read h ha, rfl⟩

/-! ## The fields of STATUS (R48) -/

theorem statusLayout_ksv (nr : BitVec 4) (err : ErrCode) (ksv busy : Bool) :
    (statusLayout nr err ksv busy).getLsbD 1 = ksv := by
  rw [statusLayout, BitVec.getLsbD_append, BitVec.getLsbD_append]
  cases ksv <;> rfl

theorem statusLayout_err (nr : BitVec 4) (err : ErrCode) (ksv busy : Bool) :
    (statusLayout nr err ksv busy).extractLsb' 4 3 = err.code := by
  unfold statusLayout
  iterate 3 rw [BitVec.extractLsb'_append_eq_of_le (by decide)]
  exact BitVec.extractLsb'_append_eq_right

theorem statusLayout_nr (nr : BitVec 4) (err : ErrCode) (ksv busy : Bool) :
    (statusLayout nr err ksv busy).extractLsb' 8 4 = nr := by
  unfold statusLayout
  iterate 5 rw [BitVec.extractLsb'_append_eq_of_le (by decide)]
  exact BitVec.extractLsb'_append_eq_right

/-- The idle core's STATUS shows BUSY = 0. -/
theorem statusIdle_eq {s : State} (hp : s.pend = none) :
    s.statusIdle = 0#20 ++ s.nr ++ 0#1 ++ s.err.code ++ 0#2 ++ BitVec.ofBool s.ksv ++ 0#1 := by
  have hbusy : s.busy = false := by simp [State.busy, hp]
  rw [State.statusIdle, hbusy]
  rfl

/-! ## The obligations -/

/-- Settles O16: the guarded registers are those of R54's list, and a write to any other register is ignored, idle and busy. -/
theorem writesWhileBusyAreDropped : Obligations.WritesWhileBusyAreDropped := by
  unfold Obligations.WritesWhileBusyAreDropped
  constructor
  · intro s c n offset v rest h ha
    refine ⟨n, ?_⟩
    simp only [step_running_write h ha, guarded_regAt_iff ha]
  · intro s offset v rest h ha hoff
    refine step_idle_write_of_not_guarded h ha ?_
    rw [guarded_regAt_iff ha]
    bv_omega

/-- Settles O33: every offset 0x20 + 4k is KEY[k], which a write sets and a read hides. -/
theorem keyIsWriteOnly : Obligations.KeyIsWriteOnly := by
  unfold Obligations.KeyIsWriteOnly
  refine ⟨fun k s v rest h => ?_, fun k s rest h => ?_, fun k s c n rest h => ?_⟩
  · rw [step_idle_write h (key_aligned k), regAt_key]
    rfl
  · rw [step_idle_read h (key_aligned k), regAt_key]
    rfl
  · obtain ⟨t, d, ht, hreplies⟩ := step_running_read_replies h (key_aligned k)
    rw [regAt_key] at hreplies
    exact ⟨t, ht, hreplies⟩

/-- Settles O34: the new matrix is the old one with column c loaded from v. -/
theorem dataWriteLoadsItsColumn : Obligations.DataWriteLoadsItsColumn := by
  unfold Obligations.DataWriteLoadsItsColumn
  intro c s v rest h
  refine ⟨s.st.setCol c (Column.ofWord v), ?_, fun r => ?_, fun r d hd => Block.get_setCol_other _ r _ hd⟩
  · rw [step_idle_write h (data_aligned c), regAt_data]
    rfl
  · rw [Block.get_setCol_same, Column.get_ofWord]
    rfl

/-- Settles O40: the reply is `readBusy` of the register at the offset, so each clause is that register's row. -/
theorem readsWhileBusy : Obligations.ReadsWhileBusy := by
  unfold Obligations.ReadsWhileBusy
  intro s c n offset rest h ha
  refine ⟨_, _, n, rfl, step_running_read h ha, ?status, ?draw, ?ctrl, ?ksidx, ?zero⟩
  case status =>
    rintro rfl
    exact ⟨statusBusy_busy .., statusLayout_err .., statusLayout_ksv .., statusLayout_nr ..⟩
  case draw => rintro (rfl | rfl | rfl | rfl | rfl | rfl) <;> rfl
  case ctrl => rintro rfl; rfl
  case ksidx => rintro rfl; rfl
  case zero =>
    rintro (rfl | ⟨hlo, hhi⟩)
    · rfl
    · obtain ⟨k, hk⟩ := exists_regAt_eq_key ha hlo hhi
      rw [hk]
      rfl

/-- Settles O31: offset 0x00 is CTRL, written and read at once when idle and read as it stands when busy. -/
theorem ctrlHoldsTheKeySize : Obligations.CtrlHoldsTheKeySize := by
  unfold Obligations.CtrlHoldsTheKeySize
  refine ⟨fun s v rest h => step_idle_write h rfl, fun s rest h => step_idle_read h rfl, fun s c n rest h => ?_⟩
  obtain ⟨t, d, ht, hreplies⟩ := step_running_read_replies h rfl
  exact ⟨t, ht, hreplies⟩

/-- Settles O32: offset 0x40 is KSIDX, written and read at once when idle and read as it stands when busy. -/
theorem ksidxHoldsTheWindowIndex : Obligations.KsidxHoldsTheWindowIndex := by
  unfold Obligations.KsidxHoldsTheWindowIndex
  refine ⟨fun s v rest h => step_idle_write h rfl, fun s rest h => step_idle_read h rfl, fun s c n rest h => ?_⟩
  obtain ⟨t, d, ht, hreplies⟩ := step_running_read_replies h rfl
  exact ⟨t, ht, hreplies⟩

/-- Settles O36: the word of a column is its four bytes, row 0 first. -/
theorem unloaderIsColumnMajor : Obligations.UnloaderIsColumnMajor := by
  unfold Obligations.UnloaderIsColumnMajor
  intro c s rest h
  rw [step_idle_read h (data_aligned c), regAt_data]
  rfl

/-- Settles O37: the codes are R212's, an idle read shows the layout with BUSY = 0, and STATUS is not guarded. -/
theorem statusReadsItsFields : Obligations.StatusReadsItsFields := by
  unfold Obligations.StatusReadsItsFields
  have hg : ¬ (regAt 0x08#8).guarded = true := by decide
  refine ⟨⟨rfl, rfl, rfl, rfl, rfl, rfl⟩, fun s rest h => ?_,
    fun s v rest h => step_idle_write_of_not_guarded h rfl hg,
    fun s c n v rest h => ⟨n, step_running_write_of_not_guarded h rfl hg⟩⟩
  rw [← statusIdle_eq h.2.1]
  exact step_idle_read h rfl

/-- Settles O38: offset 0x0C is RESULT, which an idle read returns and which is not guarded. -/
theorem resultReadsItsByte : Obligations.ResultReadsItsByte := by
  unfold Obligations.ResultReadsItsByte
  have hg : ¬ (regAt 0x0C#8).guarded = true := by decide
  exact ⟨fun s rest h => step_idle_read h rfl,
    fun s v rest h => step_idle_write_of_not_guarded h rfl hg,
    fun s c n v rest h => ⟨n, step_running_write_of_not_guarded h rfl hg⟩⟩

/-- Settles O39: offset 0x44 is KSDATA, whose idle read is R57's condition on the schedule window. -/
theorem ksdataReadsTheScheduleWhenReadable : Obligations.KsdataReadsTheScheduleWhenReadable := by
  unfold Obligations.KsdataReadsTheScheduleWhenReadable
  intro s rest h
  exact step_idle_read h rfl

end Sys2Proof.Machine

/-! # Proofs: the encoding (30_encoding.md) -/

namespace Sys2Proof

/-! ## The rows of the opcode map (R73, R74) -/

/-- The row of a command in the opcode map: its form's mask, and its OP value as the match. -/
def Instr.row (i : Instr) : Word × Word := (i.form.mask, i.opcode.setWidth 32)

/-- Every row of the opcode map is the row of a command, and the map lists the commands in this order. -/
theorem opcodeRows_eq_map_row :
    opcodeRows = [Instr.nop, .keyexp, .clrerr, .addrk 0, .subb, .shrow, .mixcol, .encrnd 0, .encfin 0, .encblk,
      .isubb, .ishrow, .imixcol, .decrnd 0, .decfin 0, .decblk, .gfmul 0#8 0#8, .sbox 0#8, .isbox 0#8].map Instr.row := rfl

theorem exists_row_eq_of_mem {row : Word × Word} (h : row ∈ opcodeRows) : ∃ i : Instr, i.row = row := by
  rw [opcodeRows_eq_map_row] at h
  obtain ⟨i, -, hi⟩ := List.mem_map.mp h
  exact ⟨i, hi⟩

theorem row_mem_opcodeRows (i : Instr) : i.row ∈ opcodeRows := by
  cases i <;> simp [opcodeRows, Instr.row, Instr.form, Form.mask, Instr.opcode]

/-! ## A word that matches a row -/

/-- A word with a command's OP names a command of the same row; only the operands may differ. -/
theorem decodeOp_of_opField {v : Word} {i : Instr} (h : opField v = i.opcode) :
    ∃ j, decodeOp v = some j ∧ j.row = i.row := by
  unfold decodeOp
  rw [h]
  cases i <;> exact ⟨_, rfl, rfl⟩

/-- A word that meets the row of the command its OP names decodes to that command. -/
theorem decode_of_decodeOp {v : Word} {i : Instr} (hop : decodeOp v = some i) (hrow : v &&& i.row.1 = i.row.2) :
    decode v = .ok i := by
  have hmatch : rowMatches i v = true := beq_iff_eq.mpr hrow
  simp [decode, hop, hmatch]

/-- A word that matches the row of a command decodes to a command of that row. -/
theorem decode_of_match {v : Word} {i : Instr} (h : v &&& i.row.1 = i.row.2) : ∃ j, decode v = .ok j ∧ j.row = i.row := by
  obtain ⟨j, hop, hrow⟩ := decodeOp_of_opField (opField_of_mask i.form h)
  exact ⟨j, decode_of_decodeOp hop (hrow ▸ h), hrow⟩

/-- The row that a word matches is the row of the command it decodes to. -/
theorem decode_of_match_mem {v : Word} {row : Word × Word} (hmem : row ∈ opcodeRows) (h : v &&& row.1 = row.2) :
    ∃ i, decode v = .ok i ∧ i.row = row := by
  obtain ⟨i, rfl⟩ := exists_row_eq_of_mem hmem
  exact decode_of_match h

/-- R74: a word decodes exactly when it matches a row. -/
theorem exists_decode_iff (v : Word) : (∃ i, decode v = .ok i) ↔ ∃ row ∈ opcodeRows, v &&& row.1 = row.2 := by
  constructor
  · rintro ⟨i, hi⟩
    exact ⟨i.row, row_mem_opcodeRows i, (decode_ok hi).2⟩
  · rintro ⟨row, hmem, h⟩
    obtain ⟨i, hi, -⟩ := decode_of_match_mem hmem h
    exact ⟨i, hi⟩

/-- R74: at most one row matches. -/
theorem row_unique {v : Word} {r₁ r₂ : Word × Word} (h₁ : r₁ ∈ opcodeRows) (h₂ : r₂ ∈ opcodeRows)
    (hm₁ : v &&& r₁.1 = r₁.2) (hm₂ : v &&& r₂.1 = r₂.2) : r₁ = r₂ := by
  obtain ⟨i, hi, hrow₁⟩ := decode_of_match_mem h₁ hm₁
  obtain ⟨j, hj, hrow₂⟩ := decode_of_match_mem h₂ hm₂
  have hij : i = j := by simpa [hi] using hj
  rw [← hrow₁, ← hrow₂, hij]

/-- R74: decoding is total. -/
theorem decode_total (v : Word) : (∃ i, decode v = .ok i) ∨ ∃ e, decode v = .error e := by
  cases decode v with
  | ok i => exact .inl ⟨i, rfl⟩
  | error e => exact .inr ⟨e, rfl⟩

end Sys2Proof

namespace Sys2Proof.Machine

/-- R216: an illegal word written to CMD of the idle core only records ILLEGAL. -/
theorem step_illegal_write {s : State} {v : Word} {rest : List HostEvent} {e : Illegal}
    (h : s.IdleNext (writeEvent 0x04#8 v) rest) (hd : decode v = .error e) :
    step s = .next { s with inbox := rest, err := if s.err = .none then .illegal else s.err } := by
  have hfetch : step s = fetchCommand v { s with inbox := rest } := step_idle_write h rfl
  rw [hfetch, fetchCommand, hd]
  simp [State.raise_eq]

/-- Settles O4: a matching row is the row of the decoded command, so it is the only one; a word without a row decodes to an
error. -/
theorem decodingSelectsTheMatchingRow : Obligations.DecodingSelectsTheMatchingRow := by
  unfold Obligations.DecodingSelectsTheMatchingRow
  refine ⟨exists_decode_iff, fun v r₁ h₁ r₂ h₂ => row_unique h₁ h₂,
    fun v i hi => ⟨row_mem_opcodeRows i, (decode_ok hi).2⟩, decode_total, fun s v rest h hnone => ?_⟩
  rcases decode_total v with hok | ⟨e, he⟩
  · obtain ⟨row, hmem, hrow⟩ := (exists_decode_iff v).mp hok
    exact absurd hrow (hnone row hmem)
  · exact step_illegal_write h he

end Sys2Proof.Machine

/-! ## The multiplier is a field product (R100, R101) -/

namespace Sys2Proof.Machine

/-- Every word is a sum of single bits: a property of zero and of the single bits that sums keep holds of every word. -/
theorem twoPow_xor_induction {w : Nat} {motive : BitVec w → Prop} (zero : motive 0#w)
    (bit : ∀ i, i < w → motive (BitVec.twoPow w i))
    (sum : ∀ x y, motive x → motive y → motive (x ^^^ y)) (x : BitVec w) : motive x := by
  suffices low : ∀ n ≤ w, ∀ x : BitVec w, (∀ i, n ≤ i → x.getLsbD i = false) → motive x from
    low w le_rfl x fun i hi => BitVec.getLsbD_of_ge x i hi
  intro n
  induction n with
  | zero =>
    intro _ x hx
    obtain rfl : x = 0#w := BitVec.eq_of_getLsbD_eq fun i _ => by simp [hx i]
    exact zero
  | succ n ih =>
    intro hn x hx
    cases hbit : x.getLsbD n with
    | false =>
      refine ih (Nat.le_of_succ_le hn) x fun i hi => ?_
      rcases hi.eq_or_lt with rfl | hlt
      · exact hbit
      · exact hx i hlt
    | true =>
      have hrest : motive (x ^^^ BitVec.twoPow w n) := by
        refine ih (Nat.le_of_succ_le hn) _ fun i hi => ?_
        rcases hi.eq_or_lt with rfl | hlt
        · simp [hbit, Nat.lt_of_succ_le hn]
        · simp [hx i hlt, BitVec.getLsbD_twoPow, Nat.ne_of_lt hlt]
      have hsum := sum _ _ hrest (bit n hn)
      rwa [BitVec.xor_assoc, BitVec.xor_self, BitVec.xor_zero] at hsum

/-- The loop adds nothing for a zero second operand. -/
@[simp] theorem gmulLoop_zero_right (n : Nat) (p a : Byte) : gmulLoop n p a 0#8 = p := by
  induction n generalizing a with
  | zero => rfl
  | succ n ih => simp [gmulLoop, ih]

/-- For a second operand with only bit `i` set, the loop adds the first operand doubled `i` times. -/
theorem gmulLoop_twoPow {n i : Nat} (p a : Byte) (hn : i < n) (hi : i < 8) :
    gmulLoop n p a (BitVec.twoPow 8 i) = p ^^^ xtime^[i] a := by
  induction i generalizing n a with
  | zero =>
    obtain ⟨m, rfl⟩ := Nat.exists_eq_succ_of_ne_zero hn.ne'
    have hshift : BitVec.twoPow 8 0 >>> 1 = 0#8 := rfl
    simp [gmulLoop, hshift]
  | succ i ih =>
    obtain ⟨m, rfl⟩ := Nat.exists_eq_succ_of_ne_zero (Nat.ne_zero_of_lt hn)
    have hi' : i < 7 := Nat.lt_of_succ_lt_succ hi
    have hshift : BitVec.twoPow 8 (i + 1) >>> 1 = BitVec.twoPow 8 i := by
      interval_cases i <;> rfl
    rw [Function.iterate_succ_apply, ← ih (xtime a) (Nat.lt_of_succ_lt_succ hn) (hi'.trans (by decide))]
    simp [gmulLoop, hshift]

/-- Doubling the first operand and the accumulator doubles what the loop returns. -/
theorem gmulLoop_xtime (n : Nat) (p a b : Byte) : gmulLoop n (xtime p) (xtime a) b = xtime (gmulLoop n p a b) := by
  induction n generalizing p a b with
  | zero => rfl
  | succ n ih =>
    simp only [gmulLoop]
    rw [← ih]
    congr 1
    split
    · exact (xtime_xor p a).symm
    · rfl

/-- R101: the product distributes over XOR in its second operand. -/
theorem gmul_xor_right (a b c : Byte) : gmul a (b ^^^ c) = gmul a b ^^^ gmul a c :=
  gmulLoop_xor_right 8 0#8 0#8 a b c

/-- The product distributes over XOR in its first operand. -/
theorem gmul_xor_left (a b c : Byte) : gmul (a ^^^ b) c = gmul a c ^^^ gmul b c :=
  gmulLoop_xor_left 8 0#8 0#8 a b c

@[simp] theorem gmul_zero_right (a : Byte) : gmul a 0#8 = 0#8 := gmulLoop_zero_right 8 0#8 a

@[simp] theorem gmul_zero_left (b : Byte) : gmul 0#8 b = 0#8 := by
  have h := gmul_xor_left 0#8 0#8 b
  rwa [BitVec.xor_self, BitVec.xor_self] at h

/-- Multiplying by a single bit is doubling as often as the bit's position says. -/
theorem gmul_twoPow {i : Nat} (a : Byte) (hi : i < 8) : gmul a (BitVec.twoPow 8 i) = xtime^[i] a := by
  rw [gmul, gmulLoop_twoPow _ _ hi hi, BitVec.zero_xor]

@[simp] theorem gmul_one_right (a : Byte) : gmul a 1#8 = a := gmul_twoPow (i := 0) a (by decide)

/-- R100: multiplying by 0x02 is doubling. -/
theorem gmul_two_right (a : Byte) : gmul a 2#8 = xtime a := gmul_twoPow (i := 1) a (by decide)

/-- Doubling the first operand doubles the product. -/
theorem gmul_xtime_left (a b : Byte) : gmul (xtime a) b = xtime (gmul a b) := gmulLoop_xtime 8 0#8 a b

/-- Doubling the first operand `i` times doubles the product `i` times. -/
theorem gmul_xtime_iterate_left (i : Nat) (a b : Byte) : gmul (xtime^[i] a) b = xtime^[i] (gmul a b) :=
  (Function.Semiconj.iterate_right (f := (gmul · b)) (fun a => gmul_xtime_left a b) i) a

/-- A single bit is 1 doubled as often as its position says. -/
theorem xtime_iterate_one {i : Nat} (hi : i < 8) : xtime^[i] 1#8 = BitVec.twoPow 8 i := by
  interval_cases i <;> rfl

@[simp] theorem gmul_one_left (b : Byte) : gmul 1#8 b = b := by
  induction b using twoPow_xor_induction with
  | zero => exact gmul_zero_right 1#8
  | bit i hi => rw [gmul_twoPow _ hi, xtime_iterate_one hi]
  | sum x y hx hy => rw [gmul_xor_right, hx, hy]

/-- R101: the product is commutative, for it is linear in each operand and a single bit doubles from either side. -/
theorem gmul_comm (a b : Byte) : gmul a b = gmul b a := by
  induction b using twoPow_xor_induction with
  | zero => rw [gmul_zero_right, gmul_zero_left]
  | bit i hi =>
    calc gmul a (BitVec.twoPow 8 i) = xtime^[i] a := gmul_twoPow a hi
      _ = xtime^[i] (gmul 1#8 a) := by rw [gmul_one_left]
      _ = gmul (xtime^[i] 1#8) a := (gmul_xtime_iterate_left i 1#8 a).symm
      _ = gmul (BitVec.twoPow 8 i) a := by rw [xtime_iterate_one hi]
  | sum x y hx hy => rw [gmul_xor_right, gmul_xor_left, hx, hy]

/-- Doubling the second operand doubles the product. -/
theorem gmul_xtime_right (a b : Byte) : gmul a (xtime b) = xtime (gmul a b) := by
  rw [gmul_comm a, gmul_xtime_left, gmul_comm b]

/-- Settles O44: the loop is linear in each operand and commutes with doubling, and single bits generate every byte. -/
theorem gmulIsAFieldProduct : Obligations.GmulIsAFieldProduct := by
  unfold Obligations.GmulIsAFieldProduct
  refine ⟨gmul_comm, gmul_xor_right, gmul_one_right, gmul_zero_right, gmul_two_right, fun a b => ?_⟩
  calc gmul a (gmul b 2) = gmul a (xtime b) := congrArg (gmul a) (gmul_two_right b)
    _ = xtime (gmul a b) := gmul_xtime_right a b
    _ = gmul (gmul a b) 2 := (gmul_two_right (gmul a b)).symm

end Sys2Proof.Machine

/-! # Proofs: the key schedule (41_key_expansion.md) -/

namespace Sys2Proof.Machine

/-! ## The recurrence (R124) -/

/-- The recurrence appends one word at a time. -/
@[simp] theorem length_extend (nk n : Nat) (w : List Word) : (extend nk n w).length = w.length + n := by
  induction n generalizing w with
  | zero => rfl
  | succ n ih =>
    rw [extend, ih, List.length_append, List.length_singleton]
    omega

/-- The recurrence keeps the words it starts from. -/
theorem getD_extend_of_lt {nk n i : Nat} {w : List Word} (hi : i < w.length) :
    (extend nk n w).getD i 0#32 = w.getD i 0#32 := by
  induction n generalizing w with
  | zero => rfl
  | succ n ih =>
    have hlonger : i < (w ++ [nextWord nk w]).length := by
      rw [List.length_append]
      omega
    rw [extend, ih hlonger, List.getD_append _ _ _ _ hi]

/-- The first word the recurrence adds is `nextWord`. -/
theorem getD_extend_succ_length (nk n : Nat) (w : List Word) :
    (extend nk (n + 1) w).getD w.length 0#32 = nextWord nk w := by
  rw [extend, getD_extend_of_lt (by simp), List.getD_append_right _ _ _ _ le_rfl, Nat.sub_self, List.getD_cons_zero]

/-- Every word the recurrence adds follows R124 from the words before it: the first by definition, for the words `nextWord`
reads are kept, and the later ones are the first of a shorter recurrence. -/
theorem getD_extend_of_le {nk n i : Nat} {w : List Word} (hnk : 0 < nk) (hw : 0 < w.length) (hlo : w.length ≤ i)
    (hhi : i < w.length + n) :
    (extend nk n w).getD i 0#32 =
      (extend nk n w).getD (i - nk) 0#32 ^^^ expandTemp nk i ((extend nk n w).getD (i - 1) 0#32) := by
  induction n generalizing w with
  | zero => omega
  | succ n ih =>
    rcases hlo.eq_or_lt with rfl | hlt
    · rw [getD_extend_succ_length, getD_extend_of_lt (Nat.sub_lt hw hnk), getD_extend_of_lt (Nat.sub_lt hw Nat.one_pos),
        nextWord]
    · have hlen : (w ++ [nextWord nk w]).length = w.length + 1 := by simp
      rw [extend]
      exact ih (by omega) (by omega) (by omega)

/-- Settles O54: `expand` is `extend` from the key's words, which keeps them and adds words by R124. -/
theorem scheduleFollowsTheRecurrence : Obligations.ScheduleFollowsTheRecurrence := by
  unfold Obligations.ScheduleFollowsTheRecurrence
  rintro k nk nr rfl hsize
  have hpos : 0 < k.length := by omega
  have htotal : k.length + (scheduleWords nr - k.length) = 4 * (nr + 1) := by
    rw [scheduleWords]
    omega
  refine ⟨?length, fun i hi => getD_extend_of_lt hi, fun i hlo hhi => ?word⟩
  case length => rw [expand, length_extend, htotal]
  case word => exact getD_extend_of_le hpos hpos hlo (htotal.symm ▸ hhi)

/-! ## Key sizes and SubWord (R120, R123) -/

/-- A command presented to the idle core whose checks fail only records the first failing check's error (R219, R220). -/
theorem exec_failedCheck {c : Instr} {s : State} {code : ErrCode} (hp : s.pend = none)
    (hf : s.failedCheck c = some code) : exec c s = .next (s.raise code) := by
  rw [exec_eq_command, command_idle hp, hf]

/-- Settles O51: the first three rows are the table's, and the fourth KSIZE fails KEYEXP's only check. -/
theorem keySizesAreTheTable : Obligations.KeySizesAreTheTable := by
  unfold Obligations.KeySizesAreTheTable
  refine ⟨by decide, by decide, by decide, fun _ => rfl, fun s hp hksize herr => ?_⟩
  have hcheck : s.failedCheck .keyexp = some .config := if_pos hksize
  rw [exec_failedCheck hp hcheck, State.raise_eq, if_pos herr]

/-- Settles O52: byte j of a word is its bits 31-8j..24-8j, and `packWord` puts byte 0 on top. -/
theorem subWordIsBytewise : Obligations.SubWordIsBytewise := by
  unfold Obligations.SubWordIsBytewise
  exact fun _ => rfl

end Sys2Proof.Machine

/-! # Proofs: the bytewise transformations (42_round_encrypt.md, 43_round_decrypt.md) -/

namespace Sys2Proof.Machine

/-! ## The byte each transformation puts at `[r][c]` -/

/-- R140. -/
@[simp] theorem get_addRoundKey (S K : Block) (r c : Fin 4) :
    (addRoundKey S K).get r c = S.get r c ^^^ K.get r c := Block.get_ofFn _ r c

/-- The column-major layout of a round key in the schedule (R25). -/
@[simp] theorem get_roundKey (ks : Vector Word 60) (i : Nat) (r c : Fin 4) :
    (roundKey ks i).get r c = wbyte (ksWord ks (4 * i + c.val)) r := Block.get_ofFn _ r c

/-- R141. -/
@[simp] theorem get_subBytes (S : Block) (r c : Fin 4) : (subBytes S).get r c = subByte (S.get r c) :=
  Block.get_ofFn _ r c

/-- R171. -/
@[simp] theorem get_invSubBytes (S : Block) (r c : Fin 4) : (invSubBytes S).get r c = invSubByte (S.get r c) :=
  Block.get_ofFn _ r c

/-- AddRoundKey is its own inverse, for XOR with the same key byte cancels. -/
@[simp] theorem addRoundKey_addRoundKey_cancel (S K : Block) : addRoundKey (addRoundKey S K) K = S := by
  refine Block.ext_get fun r c => ?_
  calc (addRoundKey (addRoundKey S K) K).get r c = S.get r c ^^^ K.get r c ^^^ K.get r c := by
        rw [get_addRoundKey, get_addRoundKey]
    _ = S.get r c := by rw [BitVec.xor_assoc, BitVec.xor_self, BitVec.xor_zero]

/-- Settles O46: each clause is the byte law of its transformation; byte r of column c of round key i is that of KS[4i+c]. -/
theorem bytewiseTransformations : Obligations.BytewiseTransformations := by
  unfold Obligations.BytewiseTransformations
  refine ⟨get_addRoundKey, fun S ks i r c => ?roundKey, addRoundKey_addRoundKey_cancel, get_subBytes, get_invSubBytes⟩
  case roundKey => rw [get_addRoundKey, get_roundKey]

end Sys2Proof.Machine

/-! # Proofs: errors (60_exceptions.md) -/

namespace Sys2Proof.Machine

/-! ## The acceptance checks (R213 to R215, R219, R220) -/

/-- A command whose first failing check is known, presented to the idle core, changes ERR alone. -/
theorem exec_failedCheck_eq {c : Instr} {s : State} {code : ErrCode} (hp : s.pend = none)
    (hf : s.failedCheck c = some code) :
    exec c s = .next { s with err := if s.err = .none then code else s.err } := by
  rw [exec_failedCheck hp hf, State.raise_eq]

theorem configCheck_of_reserved {s : State} (h : s.ksize = 3#2) : s.configCheck = some .config := if_pos h

theorem keyCheck_of_no_schedule {s : State} (h : s.ksv = false) : s.keyCheck = some .nokey := by
  rw [State.keyCheck, h, if_neg Bool.false_ne_true]

theorem roundCheck_of_no_schedule {s : State} (h : s.ksv = false) (i : Nat) : s.roundCheck i = some .nokey := by
  rw [State.roundCheck, h, if_neg Bool.false_ne_true]

theorem roundCheck_of_gt {s : State} {i : Nat} (h : s.ksv = true) (hi : s.nr.toNat < i) :
    s.roundCheck i = some .range := by
  rw [State.roundCheck, if_pos h, if_pos hi]

/-- The round-keyed commands pass the check of their index. -/
theorem failedCheck_of_roundIndex {c : Instr} {i : Nat} (h : c.roundIndex = some i) (s : State) :
    s.failedCheck c = s.roundCheck i := by
  cases c
  case addrk | encrnd | encfin | decrnd | decfin =>
    obtain rfl := Option.some.inj h
    rfl
  all_goals cases h

/-- A command that reads round keys either names one by its index or is a block command, which reads them all. -/
theorem roundIndex_or_block_of_readsRoundKeys {c : Instr} (h : c.readsRoundKeys = true) :
    (∃ i, c.roundIndex = some i) ∨ c = .encblk ∨ c = .decblk := by
  cases c
  case addrk i | encrnd i | encfin i | decrnd i | decfin i => exact .inl ⟨i, rfl⟩
  case encblk => exact .inr (.inl rfl)
  case decblk => exact .inr (.inr rfl)
  all_goals cases h

/-- Without a schedule every command that reads round keys fails NOKEY first. -/
theorem failedCheck_of_no_schedule {c : Instr} {s : State} (h : c.readsRoundKeys = true) (hksv : s.ksv = false) :
    s.failedCheck c = some .nokey := by
  rcases roundIndex_or_block_of_readsRoundKeys h with ⟨i, hi⟩ | rfl | rfl
  · rw [failedCheck_of_roundIndex hi, roundCheck_of_no_schedule hksv]
  · exact keyCheck_of_no_schedule hksv
  · exact keyCheck_of_no_schedule hksv

theorem configCheck_code {s : State} {code : ErrCode} (h : s.configCheck = some code) : code = .config :=
  (Option.some.inj (Option.ite_none_right_eq_some.mp h).2).symm

theorem keyCheck_code {s : State} {code : ErrCode} (h : s.keyCheck = some code) : code = .nokey :=
  (Option.some.inj (Option.ite_none_left_eq_some.mp h).2).symm

theorem roundCheck_code {s : State} {i : Nat} {code : ErrCode} (h : s.roundCheck i = some code) :
    code = .nokey ∨ code = .range := by
  unfold State.roundCheck at h
  split at h
  · exact .inr (Option.some.inj (Option.ite_none_right_eq_some.mp h).2).symm
  · exact .inl (Option.some.inj h).symm

/-- A failing check of a command records CONFIG, NOKEY or RANGE. -/
theorem failedCheck_code {c : Instr} {s : State} {code : ErrCode} (h : s.failedCheck c = some code) :
    code = .config ∨ code = .nokey ∨ code = .range := by
  cases c
  case keyexp => exact .inl (configCheck_code h)
  case encblk | decblk => exact .inr (.inl (keyCheck_code h))
  case addrk | encrnd | encfin | decrnd | decfin => exact .inr (roundCheck_code h)
  all_goals cases h

/-- Settles O11: CONFIG is the one check of KEYEXP. -/
theorem keyexpWithReservedSizeRaisesConfig : Obligations.KeyexpWithReservedSizeRaisesConfig := by
  unfold Obligations.KeyexpWithReservedSizeRaisesConfig
  exact fun s hp hksize => exec_failedCheck_eq hp (configCheck_of_reserved hksize)

/-- Settles O12: without a schedule the first check to fail is NOKEY, and reset leaves no schedule. -/
theorem roundKeyCommandsWithoutScheduleRaiseNokey : Obligations.RoundKeyCommandsWithoutScheduleRaiseNokey := by
  unfold Obligations.RoundKeyCommandsWithoutScheduleRaiseNokey
  exact ⟨rfl, fun c s hc hp hksv => exec_failedCheck_eq hp (failedCheck_of_no_schedule hc hksv)⟩

/-- Settles O13: with a schedule the check of the round index is RANGE. -/
theorem roundIndexAboveNrRaisesRange : Obligations.RoundIndexAboveNrRaisesRange := by
  unfold Obligations.RoundIndexAboveNrRaisesRange
  intro c i s hc hp hksv hi
  have hcheck : s.failedCheck c = some .range := by rw [failedCheck_of_roundIndex hc, roundCheck_of_gt hksv hi]
  exact exec_failedCheck_eq hp hcheck

/-! ## A CMD write that is not accepted (R220) -/

theorem exists_failedCheck_of_not_admits {c : Instr} {s : State} (h : s.admits c = false) :
    ∃ code, s.failedCheck c = some code := by
  refine Option.ne_none_iff_exists'.mp fun hnone => ?_
  rw [(admits_iff s c).mpr hnone] at h
  cases h

/-- A CMD write taken by the idle core runs the command its word decodes to (R47). -/
theorem step_decoded_write {s : State} {v : Word} {rest : List HostEvent} {i : Instr}
    (h : s.IdleNext (writeEvent 0x04#8 v) rest) (hd : decode v = .ok i) : step s = exec i { s with inbox := rest } := by
  have hfetch : step s = fetchCommand v { s with inbox := rest } := step_idle_write h rfl
  rw [hfetch, fetchCommand, hd]

/-- A CMD write that the idle core does not accept leaves the inbox and changes ERR alone, by one of four codes. -/
theorem step_erroring_write {s : State} {v : Word} {rest : List HostEvent}
    (h : s.IdleNext (writeEvent 0x04#8 v) rest) (hfail : ∀ i, decode v = .ok i → s.admits i = false) :
    ∃ code, (code = .illegal ∨ code = .config ∨ code = .nokey ∨ code = .range) ∧
      step s = .next { s with inbox := rest, err := if s.err = .none then code else s.err } := by
  rcases decode_total v with ⟨i, hi⟩ | ⟨e, he⟩
  · obtain ⟨code, hcode⟩ := exists_failedCheck_of_not_admits (s := { s with inbox := rest }) (hfail i hi)
    exact ⟨code, .inr (failedCheck_code hcode), (step_decoded_write h hi).trans (exec_failedCheck_eq h.2.1 hcode)⟩
  · exact ⟨.illegal, .inl rfl, step_illegal_write h he⟩

/-- Settles O14: the write only leaves the inbox and records one of the four codes where ERR = 0. -/
theorem erroringCommandChangesOnlyErr : Obligations.ErroringCommandChangesOnlyErr := by
  unfold Obligations.ErroringCommandChangesOnlyErr
  intro s v rest h hfail
  obtain ⟨code, hcode, hstep⟩ := step_erroring_write h hfail
  obtain ⟨-, hpend, -⟩ := h
  have hbusy : s.busy = false := by simp [State.busy, hpend]
  refine ⟨_, hstep, hbusy, hpend, rfl, rfl, rfl, rfl, rfl, rfl, rfl, rfl, rfl, rfl, fun herr => if_neg herr, fun herr => ?_⟩
  rwa [if_pos herr]

/-! ## Execution does not look at ERR (R211) -/

/-- The checks do not read ERR. -/
theorem failedCheck_with_err (c : Instr) (s : State) (e : ErrCode) :
    ({ s with err := e } : State).failedCheck c = s.failedCheck c := by
  cases c <;> rfl

/-- The writes of a completion do not read ERR. -/
theorem completed_with_err (c : Instr) (s : State) (e : ErrCode) :
    { ({ s with err := e } : State).completed c with
      err := (s.completed c).err, countdown := (s.completed c).countdown } = s.completed c := by
  cases c
  case keyexp => simp only [State.completed, State.expandKey, State.newSchedule]
  case encblk => simp only [State.completed, State.encryptBlock]
  case decblk => simp only [State.completed, State.decryptBlock]
  all_goals rfl

/-- Recording an error reads and writes ERR alone. -/
theorem raise_with_err (s : State) (code e : ErrCode) :
    { ({ s with err := e } : State).raise code with
      err := (s.raise code).err, countdown := (s.raise code).countdown } = s.raise code := by
  rw [State.raise_eq, State.raise_eq]

/-- A command presented while another runs is turned away. -/
theorem exec_busy {c d : Instr} {s : State} (hp : s.pend = some d) (hn : ¬ s.Due c) :
    exec c s = .next (s.raise .busy) := by
  rw [exec_eq_command, command_busy hp hn]

/-- A command presented to the idle core whose checks pass is accepted. -/
theorem exec_accept {c : Instr} {s : State} (hp : s.pend = none) (hf : s.failedCheck c = none) :
    exec c s = .next (s.accept c) := by
  rw [exec_eq_command, command_idle hp, hf]

/-- A command executes alike whatever ERR is: both states give the same one of the four outcomes of `command`, and the results
differ at most in ERR and in the latency drawn at acceptance. -/
theorem exec_with_err (c : Instr) (s : State) (e : ErrCode) :
    ∃ t u, exec c s = .next t ∧ exec c { s with err := e } = .next u ∧
      { u with err := t.err, countdown := t.countdown } = t := by
  by_cases hd : s.Due c
  · exact ⟨_, _, exec_due hd, exec_due (s := { s with err := e }) hd, congrArg State.finish (completed_with_err c s e)⟩
  rcases Option.eq_none_or_eq_some s.pend with hp | ⟨d, hp⟩
  · have hchecks := failedCheck_with_err c s e
    rcases Option.eq_none_or_eq_some (s.failedCheck c) with hf | ⟨code, hf⟩
    · exact ⟨_, _, exec_accept hp hf, exec_accept (s := { s with err := e }) hp (hchecks.trans hf), rfl⟩
    · exact ⟨_, _, exec_failedCheck hp hf, exec_failedCheck (s := { s with err := e }) hp (hchecks.trans hf),
        raise_with_err s code e⟩
  · exact ⟨_, _, exec_busy hp hd, exec_busy (s := { s with err := e }) hp hd, raise_with_err s .busy e⟩

/-! ## A recorded error stays (R211, R222) -/

theorem raise_err_of_ne_none {s : State} (h : s.err ≠ .none) (code : ErrCode) : (s.raise code).err = s.err := by
  rw [State.raise, if_neg h]

theorem raise_err_of_none {s : State} (h : s.err = .none) (code : ErrCode) : (s.raise code).err = code := by
  rw [State.raise, if_pos h]

/-- CLRERR is the only command that writes ERR at its completion. -/
theorem completed_err {c : Instr} (h : c ≠ .clrerr) (s : State) : (s.completed c).err = s.err := by
  cases c
  case clrerr => exact absurd rfl h
  case keyexp => exact s.expandKey_err
  case encblk => exact s.encryptBlock_err
  case decblk => exact s.decryptBlock_err
  all_goals rfl

/-- A command leaves a recorded error, unless it is CLRERR and completes. -/
theorem exec_err {c : Instr} {s t : State} (h : exec c s = .next t) (herr : s.err ≠ .none) :
    t.err = s.err ∨ s.Due .clrerr := by
  rcases exec_cases h with ⟨hd, rfl⟩ | ⟨-, -, rfl⟩ | ⟨-, code, -, rfl⟩ | ⟨-, -, rfl⟩
  · by_cases hc : c = .clrerr
    · exact .inr (hc ▸ hd)
    · exact .inl (completed_err hc s)
  · exact .inl (raise_err_of_ne_none herr _)
  · exact .inl (raise_err_of_ne_none herr _)
  · exact .inl rfl

/-- The idle core completes nothing, so a write to it leaves a recorded error. -/
theorem writeIdle_err {r : Reg} {v : Word} {s t : State} (h : writeIdle r v s = .next t) (hp : s.pend = none)
    (herr : s.err ≠ .none) : t.err = s.err := by
  rcases writeIdle_cases h with ⟨i, -, hexec, -⟩ | ⟨rfl, -⟩ | hstore
  · have hnot : ¬ s.Due .clrerr := by simp [hp]
    exact (exec_err hexec herr).resolve_right hnot
  · exact raise_err_of_ne_none herr _
  · rw [hstore]

theorem busWrite_err {r : Reg} {v : Word} {s t : State} (h : busWrite r v s = .next t) (herr : s.err ≠ .none) :
    t.err = s.err := by
  cases hr : s.rst with
  | true =>
    rw [busWrite_reset hr] at h
    cases h
    rfl
  | false =>
    cases hp : s.pend with
    | none => exact writeIdle_err (busWrite_idle hr hp r v ▸ h) hp herr
    | some c =>
      rw [busWrite_busy hr hp] at h
      cases h
      split
      · exact raise_err_of_ne_none herr _
      · rfl

/-- An event leaves a recorded error, unless it is a high `rst`. -/
theorem hostEvent_err {e : HostEvent} {s t : State} (h : hostEvent e s = .next t) (herr : s.err ≠ .none) :
    t.err = s.err ∨ e = .rst true := by
  rcases hostEvent_cases h with ⟨level, rfl, rfl⟩ | ⟨offset, -, -, rfl⟩ | ⟨offset, v, -, -, hwrite⟩
  · cases level with
    | false => exact .inl rfl
    | true => exact .inr rfl
  · obtain ⟨v, n, hread⟩ := busRead_eq (regAt offset) s
    exact .inl (by rw [hread])
  · exact .inl (busWrite_err hwrite herr)

/-- A step leaves a recorded error, unless CLRERR completes, `rst` is high, or the step takes a high `rst`. -/
theorem step_err {s t : State} (h : step s = .next t) (herr : s.err ≠ .none) :
    t.err = s.err ∨ (s.rst = false ∧ s.Due .clrerr) ∨ s.rst = true ∨ (∃ rest, s.inbox = .rst true :: rest) := by
  rcases step_shape s with ⟨c, hr, -, hs⟩ | ⟨-, -, -, hs⟩ | ⟨c, n, -, -, -, -, hs⟩ | ⟨hr, -⟩ |
    ⟨e, rest, ⟨-, -, hi⟩, hs⟩ | ⟨c, n, e, rest, ⟨-, -, -, hi⟩, hs⟩ | ⟨e, rest, hr, -⟩
  · exact (exec_err (hs.symm.trans h) herr).imp_right fun hd => .inl ⟨hr, hd⟩
  · cases hs.symm.trans h
    exact .inl rfl
  · cases hs.symm.trans h
    exact .inl rfl
  · exact .inr (.inr (.inl hr))
  · exact (hostEvent_err (hs.symm.trans h) herr).imp_right fun he => .inr (.inr ⟨rest, by rw [hi, he]⟩)
  · exact (hostEvent_err (hs.symm.trans h) herr).imp_right fun he => .inr (.inr ⟨rest, by rw [hi, he]⟩)
  · exact .inr (.inr (.inl hr))

/-- Settles O10: the second error finds ERR taken, execution does not look at ERR, and only CLRERR and reset write a recorded
error. -/
theorem raiseRecordsTheFirstErrorOnly : Obligations.RaiseRecordsTheFirstErrorOnly := by
  unfold Obligations.RaiseRecordsTheFirstErrorOnly
  refine ⟨State.raise_eq, fun s first second hnone hfirst => ?second, fun s c e => exec_with_err c s e,
    fun _ _ h herr => step_err h herr⟩
  case second =>
    have hset : (s.raise first).err = first := raise_err_of_none hnone first
    have hne : (s.raise first).err ≠ .none := hset.symm ▸ hfirst
    exact (raise_err_of_ne_none hne second).trans hset

end Sys2Proof.Machine

/-! # Proofs: reset (70_reset_and_hazards.md) -/

namespace Sys2Proof.Machine

/-! ## The slots of a core held in reset (R250) -/

/-- While `rst` is high a read returns a draw. -/
theorem busRead_reset {s : State} (hr : s.rst = true) (r : Reg) : busRead r s = (s.reply s.draw).drawn := if_pos hr

theorem step_reset_read {s : State} {offset : BitVec 8} {rest : List HostEvent} (hr : s.rst = true)
    (hi : s.inbox = readEvent offset :: rest) (ha : offset.extractLsb' 0 2 = 0#2) :
    step s = .next (({ s.cleared with inbox := rest } : State).reply
      ({ s.cleared with inbox := rest } : State).draw).drawn := by
  rw [step_reset_event hr hi, hostEvent_read ha, busRead_reset]
  exact hr

theorem step_reset_write {s : State} {offset : BitVec 8} {v : Word} {rest : List HostEvent} (hr : s.rst = true)
    (hi : s.inbox = writeEvent offset v :: rest) (ha : offset.extractLsb' 0 2 = 0#2) :
    step s = .next { s.cleared with inbox := rest } := by
  rw [step_reset_event hr hi, hostEvent_write ha, busWrite_reset]
  exact hr

/-! ## The slots out of reset -/

/-- Out of reset, where no command is due, the host's next event is taken and at most the countdown has moved. -/
theorem step_event_of_not_due {s : State} {e : HostEvent} {rest : List HostEvent} (hr : s.rst = false)
    (hi : s.inbox = e :: rest) (h : s.pend = none ∨ s.countdown ≠ 0) :
    ∃ m, step s = hostEvent e { s with inbox := rest, countdown := m } := by
  rcases Option.eq_none_or_eq_some s.pend with hp | ⟨c, hp⟩
  · exact ⟨s.countdown, step_idle_event ⟨hr, hp, hi⟩⟩
  · have hcount : s.countdown ≠ 0 := h.resolve_left (by simp [hp])
    obtain ⟨n, hn⟩ := Nat.exists_eq_succ_of_ne_zero hcount
    exact ⟨n, step_running_event ⟨hr, hp, hn, hi⟩⟩

/-- Unless a command is due out of reset, a step takes a high `rst`. -/
theorem step_rst_high {s : State} {rest : List HostEvent} (hi : s.inbox = .rst true :: rest)
    (h : s.rst = true ∨ s.pend = none ∨ s.countdown ≠ 0) : ∃ u : State, step s = .next (u.sampleRst true) := by
  cases hr : s.rst with
  | true => exact ⟨_, step_reset_event hr hi⟩
  | false =>
    have hnot : s.pend = none ∨ s.countdown ≠ 0 := h.resolve_left (by simp [hr])
    obtain ⟨m, hs⟩ := step_event_of_not_due hr hi hnot
    exact ⟨_, hs⟩

/-! ## What writes KS (R35, R251) -/

/-- A write that answers a next state runs a command on the idle core, or stores to ST, KEY, KSIZE, KSIDX or ERR and leaves all
else. -/
theorem busWrite_cases {r : Reg} {v : Word} {s t : State} (h : busWrite r v s = .next t) :
    (s.pend = none ∧ ∃ i, exec i s = .next t) ∨
      t = { s with st := t.st, key := t.key, ksize := t.ksize, ksidx := t.ksidx, err := t.err } := by
  rcases Bool.eq_false_or_eq_true s.rst with hr | hr
  · cases (busWrite_reset hr r v).symm.trans h
    exact .inr rfl
  rcases Option.eq_none_or_eq_some s.pend with hp | ⟨c, hp⟩
  · rcases writeIdle_cases (busWrite_idle hr hp r v ▸ h) with ⟨i, -, hexec, -⟩ | ⟨rfl, -⟩ | hstore
    · exact .inl ⟨hp, i, hexec⟩
    · exact .inr (by rw [State.raise_eq])
    · exact .inr (by rw [hstore])
  · cases (busWrite_busy hr hp r v).symm.trans h
    refine .inr ?_
    split
    · rw [State.raise_eq]
    · rfl

/-- KEYEXP is the only command that writes KS at its completion. -/
theorem completed_ks {c : Instr} (h : c ≠ .keyexp) (s : State) : (s.completed c).ks = s.ks := by
  cases c
  case keyexp => exact absurd rfl h
  case encblk => exact s.encryptBlock_ks
  case decblk => exact s.decryptBlock_ks
  all_goals rfl

/-- A command leaves KS, unless it is KEYEXP and completes. -/
theorem exec_ks {c : Instr} {s t : State} (h : exec c s = .next t) : t.ks = s.ks ∨ s.Due .keyexp := by
  rcases exec_cases h with ⟨hd, rfl⟩ | ⟨-, -, rfl⟩ | ⟨-, code, -, rfl⟩ | ⟨-, -, rfl⟩
  · by_cases hc : c = .keyexp
    · exact .inr (hc ▸ hd)
    · exact .inl (completed_ks hc s)
  · exact .inl (s.raise_ks _)
  · exact .inl (s.raise_ks _)
  · exact .inl rfl

/-- An event leaves KS, unless it is a high `rst`. -/
theorem hostEvent_ks {e : HostEvent} {s t : State} (h : hostEvent e s = .next t) : t.ks = s.ks ∨ e = .rst true := by
  rcases hostEvent_cases h with ⟨level, rfl, rfl⟩ | ⟨offset, -, -, rfl⟩ | ⟨offset, v, -, -, hwrite⟩
  · cases level with
    | false => exact .inl rfl
    | true => exact .inr rfl
  · obtain ⟨v, n, hread⟩ := busRead_eq (regAt offset) s
    exact .inl (by rw [hread])
  · rcases busWrite_cases hwrite with ⟨hp, i, hexec⟩ | hstore
    · have hnot : ¬ s.Due .keyexp := by simp [hp]
      exact .inl ((exec_ks hexec).resolve_right hnot)
    · exact .inl (by rw [hstore])

/-- A step leaves KS, unless `rst` is high, the step takes a high `rst`, or KEYEXP completes. -/
theorem step_ks {s t : State} (h : step s = .next t) :
    t.ks = s.ks ∨ s.rst = true ∨ (∃ rest, s.inbox = .rst true :: rest) ∨ s.Due .keyexp := by
  rcases step_shape s with ⟨c, -, -, hs⟩ | ⟨-, -, -, hs⟩ | ⟨c, n, -, -, -, -, hs⟩ | ⟨hr, -⟩ |
    ⟨e, rest, ⟨-, -, hi⟩, hs⟩ | ⟨c, n, e, rest, ⟨-, -, -, hi⟩, hs⟩ | ⟨e, rest, hr, -⟩
  · exact (exec_ks (hs.symm.trans h)).imp_right fun hd => .inr (.inr hd)
  · cases hs.symm.trans h
    exact .inl rfl
  · cases hs.symm.trans h
    exact .inl rfl
  · exact .inr (.inl hr)
  · exact (hostEvent_ks (hs.symm.trans h)).imp_right fun he => .inr (.inl ⟨rest, by rw [hi, he]⟩)
  · exact (hostEvent_ks (hs.symm.trans h)).imp_right fun he => .inr (.inl ⟨rest, by rw [hi, he]⟩)
  · exact .inr (.inl hr)

/-- Settles O43: in every clause on reset the next state is a cleared one up to the host's side, so its elements are those of the
reset state; a low sample out of reset sets `rst` to what it is; and KS changes by reset and a completing KEYEXP alone. -/
theorem resetHoldsEveryElement : Obligations.ResetHoldsEveryElement := by
  unfold Obligations.ResetHoldsEveryElement
  refine ⟨fun s rest hi h => ?high, fun s hr hi => ?empty, fun s offset rest hr hi ha => ?read,
    fun s offset v rest hr hi ha => ?write, fun s t h hks => (step_ks h).resolve_left hks,
    fun s rest hr hi => ?release, fun s rest hr hi h => ?low⟩
  case high =>
    obtain ⟨u, hs⟩ := step_rst_high hi h
    exact ⟨_, hs, rfl, State.reset_atReset⟩
  case empty => exact ⟨_, step_reset_empty hr hi, hr, State.reset_atReset⟩
  case read => exact ⟨_, step_reset_read hr hi ha, hr, State.reset_atReset, rfl, rfl⟩
  case write => exact ⟨_, step_reset_write hr hi ha, hr, State.reset_atReset, rfl⟩
  case release => exact ⟨_, step_reset_event hr hi, rfl, State.reset_atReset⟩
  case low =>
    obtain ⟨m, hs⟩ := step_event_of_not_due hr hi h
    exact ⟨m, by rw [hs, hostEvent, State.sampleRst, if_neg Bool.false_ne_true, hr]⟩

end Sys2Proof.Machine

/-! # Proofs: encoding and decoding undo each other (30_encoding.md) -/

namespace Sys2Proof

/-! ## The fields of a command's word (R70, R72) -/

@[simp] theorem opField_encode (i : Instr) : opField (encode i) = i.opcode := opField_format ..

@[simp] theorem aField_encode (i : Instr) : aField (encode i) = i.aBits := aField_format ..

@[simp] theorem bField_encode (i : Instr) : bField (encode i) = i.bBits := bField_format ..

theorem rndField_encode (i : Instr) : rndField (encode i) = i.rndBits.toNat := congrArg BitVec.toNat (rnd_format ..)

/-- The RND field of a round-keyed command holds its index. -/
theorem rndBits_of_roundIndex {i : Instr} {n : Nat} (h : i.roundIndex = some n) : i.rndBits = BitVec.ofNat 4 n := by
  cases i
  case addrk | encrnd | encfin | decrnd | decfin => cases h; rfl
  all_goals cases h

/-- The index of a well-formed round-keyed command fits its field. -/
theorem roundIndex_lt {i : Instr} {n : Nat} (hwf : i.WellFormed) (h : i.roundIndex = some n) : n < 16 := by
  cases i
  case addrk | encrnd | encfin | decrnd | decfin => cases h; exact of_decide_eq_true hwf
  all_goals cases h

/-- The RND field of the word of a well-formed round-keyed command reads back as its index. -/
theorem rndField_encode_of_roundIndex {i : Instr} {n : Nat} (hwf : i.WellFormed) (h : i.roundIndex = some n) :
    rndField (encode i) = n := by
  rw [rndField_encode, rndBits_of_roundIndex h, BitVec.toNat_ofNat, Nat.mod_eq_of_lt (roundIndex_lt hwf h)]

/-- The word of a command matches the command's row (R74). -/
theorem encode_match (i : Instr) : encode i &&& i.row.1 = i.row.2 := by
  have hb : i.form = .bytes ∨ i.bBits = 0#8 := by cases i <;> simp [Instr.form, Instr.bBits]
  have ha : i.form = .bytes ∨ i.form = .byte ∨ i.aBits = 0#8 := by cases i <;> simp [Instr.form, Instr.aBits]
  have hr : i.form = .round ∨ i.rndBits = 0#4 := by cases i <;> simp [Instr.form, Instr.rndBits]
  exact Laws.EncodedRow.of_fields _ _ _ _ _ hb ha hr

/-- The OP of a command's word names the command, and its operands are read back from their fields. -/
theorem decodeOp_encode {i : Instr} (h : i.WellFormed) : decodeOp (encode i) = some i := by
  unfold decodeOp
  rw [opField_encode]
  cases i
  case addrk | encrnd | encfin | decrnd | decfin =>
    rw [rndField_encode_of_roundIndex h rfl]
    rfl
  case gfmul | sbox | isbox =>
    rw [aField_encode, bField_encode]
    rfl
  all_goals rfl

/-- Settles O2: the OP of the word selects the command's row, the operands stand in their fields, and every other bit is 0. -/
theorem decodeOfEncodeIsTheCommand : Obligations.DecodeOfEncodeIsTheCommand := by
  unfold Obligations.DecodeOfEncodeIsTheCommand
  exact fun i h => decode_of_decodeOp (decodeOp_encode h) (encode_match i)

/-! ## The operands of a decoded command (R71, R72) -/

/-- The operands that a command's form has are those in the word's fields. -/
theorem decodeOp_operands {v : Word} {i : Instr} (h : decodeOp v = some i) :
    (∀ n, i.roundIndex = some n → n = rndField v) ∧
      (i.form = .byte ∨ i.form = .bytes → i.aBits = aField v) ∧ (i.form = .bytes → i.bBits = bField v) := by
  unfold decodeOp at h
  split at h <;> cases h <;> simp [Instr.roundIndex, Instr.form, Instr.aBits, Instr.bBits]

/-- A word that decodes is the word of its command: the row's mask fixes every bit but the operands. -/
theorem encode_of_decode {v : Word} {i : Instr} (h : decode v = .ok i) : encode i = v := by
  obtain ⟨hop, hmatch⟩ := decode_ok h
  obtain ⟨hround, ha, hb⟩ := decodeOp_operands hop
  cases i
  case addrk | encrnd | encfin | decrnd | decfin =>
    obtain rfl := hround _ rfl
    rw [encode, Instr.rndBits, ofNat_rndField]
    exact word_of_mask_round hmatch
  case sbox | isbox =>
    rw [encode, ha (.inl rfl)]
    exact word_of_mask_byte hmatch
  case gfmul =>
    rw [encode, ha (.inr rfl), hb rfl]
    exact word_of_mask_bytes hmatch
  all_goals exact word_of_mask_none hmatch

/-- Settles O3: the match of the command's row leaves no bit open but the operands, and these are taken from the word. -/
theorem encodeOfDecodeIsTheWord : Obligations.EncodeOfDecodeIsTheWord := by
  unfold Obligations.EncodeOfDecodeIsTheWord
  exact fun v i h => ⟨encode_of_decode h, decode_wellFormed h⟩

/-- Settles O5: a decoded command takes its operands from the fields of its form. -/
theorem operandsComeFromTheirFields : Obligations.OperandsComeFromTheirFields := by
  unfold Obligations.OperandsComeFromTheirFields
  refine fun v => ⟨fun i n h hn => ?round, fun a b h => ?gfmul, fun a h => ?sbox, fun a h => ?isbox⟩
  case round => exact (decodeOp_operands (decode_ok h).1).1 n hn
  all_goals obtain ⟨-, ha, hb⟩ := decodeOp_operands (decode_ok h).1
  case gfmul => exact ⟨ha (.inr rfl), hb rfl⟩
  case sbox | isbox => exact ha (.inl rfl)

/-- Settles O1: each legal word is the word of its command, and an illegal one misses the row its OP names or has no row. -/
theorem specWordsDecodeAsListed : Obligations.SpecWordsDecodeAsListed := by
  unfold Obligations.SpecWordsDecodeAsListed
  decide

end Sys2Proof

namespace Sys2Proof.Machine

/-- Settles O6: the CMD write is the fetch of the command its word decodes to. -/
theorem stepRunsTheDecodedCommand : Obligations.StepRunsTheDecodedCommand := by
  unfold Obligations.StepRunsTheDecodedCommand
  exact fun s v rest i h hd => step_decoded_write h hd

end Sys2Proof.Machine

/-! # Proofs: the invariant (10_state.md section 2, 20_memory.md section 4, 70_reset_and_hazards.md section 1) -/

namespace Sys2Proof.Machine

/-! ## The schedule that KEYEXP writes (R120, R125) -/

/-- A key size other than the reserved one has a row of the table. -/
theorem keySize_cases {k : BitVec 2} (h : k ≠ 3#2) :
    (k = 0#2 ∧ nkOf k = 4 ∧ nrOf k = 10) ∨ (k = 1#2 ∧ nkOf k = 6 ∧ nrOf k = 12) ∨ (k = 2#2 ∧ nkOf k = 8 ∧ nrOf k = 14) := by
  revert k
  decide

/-- NR holds every round count of the table. -/
theorem toNat_ofNat_nrOf (k : BitVec 2) : (BitVec.ofNat 4 (nrOf k)).toNat = nrOf k := by
  revert k
  decide

/-- R125: word n of the new schedule is the expansion's below 4*(Nr+1), and 0 from there on. -/
theorem getElem_newSchedule (s : State) {n : Nat} (hn : n < 60) :
    s.newSchedule[n] = if n < scheduleWords (nrOf s.ksize) then
      (expand (keyWords s.key (nkOf s.ksize)) (nkOf s.ksize) (nrOf s.ksize)).getD n 0#32 else 0#32 :=
  Vector.getElem_ofFn hn

/-- A new schedule has the shape the invariant asks for. -/
theorem expandKey_scheduleOk {s : State} (h : s.ksize ≠ 3#2) : s.expandKey.ScheduleOk := by
  have hnr : nrOf s.ksize = 10 ∨ nrOf s.ksize = 12 ∨ nrOf s.ksize = 14 := by
    rcases keySize_cases h with ⟨-, -, hr⟩ | ⟨-, -, hr⟩ | ⟨-, -, hr⟩ <;> simp [hr]
  refine .inr ⟨s.expandKey_ksv, ?_, fun n hn => ?_⟩
  · rw [s.expandKey_nr]
    exact hnr.imp (congrArg _) (Or.imp (congrArg _) (congrArg _))
  · rw [s.expandKey_nr, toNat_ofNat_nrOf] at hn
    simp only [s.expandKey_ks, Fin.getElem_fin, getElem_newSchedule]
    exact if_neg (Nat.not_lt.mpr hn)

/-! ## What writes KS, KSV and NR (10_state.md section 7) -/

/-- The key schedule as the core holds it: KS, KSV and NR. -/
def State.schedule (s : State) : Vector Word 60 × Bool × BitVec 4 := (s.ks, s.ksv, s.nr)

theorem schedule_eq_iff (s t : State) : t.schedule = s.schedule ↔ t.ks = s.ks ∧ t.ksv = s.ksv ∧ t.nr = s.nr := by
  simp [State.schedule]

@[simp] theorem raise_schedule (s : State) (code : ErrCode) : (s.raise code).schedule = s.schedule := by
  simp [State.schedule]

/-- KEYEXP is the only command that writes the schedule at its completion. -/
theorem completed_schedule {c : Instr} (h : c ≠ .keyexp) (s : State) : (s.completed c).schedule = s.schedule := by
  cases c
  case keyexp => exact absurd rfl h
  case encblk => simp [State.completed, State.schedule]
  case decblk => simp [State.completed, State.schedule]
  all_goals rfl

/-- A command leaves the schedule, unless it is KEYEXP and completes. -/
theorem exec_schedule {c : Instr} {s t : State} (h : exec c s = .next t) :
    t.schedule = s.schedule ∨ (c = .keyexp ∧ s.Due .keyexp) := by
  rcases exec_cases h with ⟨hd, rfl⟩ | ⟨-, -, rfl⟩ | ⟨-, code, -, rfl⟩ | ⟨-, -, rfl⟩
  · by_cases hc : c = .keyexp
    · exact .inr ⟨hc, hc ▸ hd⟩
    · exact .inl (completed_schedule hc s)
  · exact .inl (raise_schedule s _)
  · exact .inl (raise_schedule s _)
  · exact .inl rfl

/-! ## States that meet the invariant -/

/-- The checks read KSIZE, KSV and NR. -/
theorem admits_congr {s t : State} (hsch : t.schedule = s.schedule) (hksize : t.ksize = s.ksize) (c : Instr) :
    t.admits c = s.admits c := by
  obtain ⟨-, hksv, hnr⟩ := (schedule_eq_iff s t).mp hsch
  cases c <;> simp only [State.admits, hksv, hnr, hksize]

theorem scheduleOk_congr {s t : State} (hsch : t.schedule = s.schedule) (h : s.ScheduleOk) : t.ScheduleOk := by
  obtain ⟨hks, hksv, hnr⟩ := (schedule_eq_iff s t).mp hsch
  simpa only [State.ScheduleOk, hks, hksv, hnr] using h

theorem pendOk_of_idle {s : State} (h : s.pend = none) : s.PendOk := by
  simp [State.PendOk, h]

theorem pendOk_iff {s : State} {c : Instr} (h : s.pend = some c) : s.PendOk ↔ c.WellFormed ∧ s.admits c = true := by
  simp [State.PendOk, h]

theorem pendOk_congr {s t : State} (hpend : t.pend = s.pend) (hsch : t.schedule = s.schedule) (hksize : t.ksize = s.ksize)
    (h : s.PendOk) : t.PendOk := by
  simpa only [State.PendOk, hpend, admits_congr hsch hksize] using h

/-- Out of reset the invariant is what it says of the schedule and the running command. -/
theorem inv_of_rst_low {s : State} (hr : s.rst = false) (hsch : s.ScheduleOk) (hpend : s.PendOk) : s.Inv :=
  ⟨hsch, hpend, fun h => absurd h (by simp [hr])⟩

/-- A state whose elements are at their reset values meets the invariant. -/
theorem inv_of_cleared {s : State} (h : s.cleared = s) : s.Inv :=
  ⟨h ▸ .inl ⟨rfl, rfl, rfl⟩, h ▸ pendOk_of_idle rfl, fun _ => h⟩

/-- The invariant says nothing about the host's side. -/
theorem inv_with_host {s : State} (h : s.Inv) (inbox : List HostEvent) (replies : List Word) (draws : Nat) :
    ({ s with inbox := inbox, replies := replies, draws := draws } : State).Inv := by
  obtain ⟨hsch, hpend, hheld⟩ := h
  refine ⟨hsch, hpend, fun hr => ?_⟩
  exact congrArg (fun u : State => { u with inbox := inbox, replies := replies, draws := draws }) (hheld hr)

/-- Recording an error out of reset keeps the invariant. -/
theorem inv_raise {s : State} (h : s.Inv) (hr : s.rst = false) (code : ErrCode) : (s.raise code).Inv := by
  obtain ⟨hsch, hpend, -⟩ := h
  exact inv_of_rst_low (by simpa using hr) (scheduleOk_congr (raise_schedule s code) hsch)
    (pendOk_congr (s.raise_pend code) (raise_schedule s code) (s.raise_ksize code) hpend)

/-! ## Commands and events keep the invariant -/

/-- Completions do not touch the level of `rst`. -/
@[simp] theorem completed_rst (c : Instr) (s : State) : (s.completed c).rst = s.rst := by
  cases c
  case keyexp => exact s.expandKey_rst
  case encblk => exact s.encryptBlock_rst
  case decblk => exact s.decryptBlock_rst
  all_goals rfl

/-- A completion leaves a schedule of the right shape: KEYEXP, whose check passed, writes a whole new one, and the other commands
leave the old one. -/
theorem completed_scheduleOk {c : Instr} {s : State} (h : s.Inv) (hd : s.Due c) : (s.completed c).ScheduleOk := by
  obtain ⟨hsch, hpend, -⟩ := h
  by_cases hc : c = .keyexp
  · subst hc
    exact expandKey_scheduleOk (of_decide_eq_true ((pendOk_iff hd.1).mp hpend).2)
  · exact scheduleOk_congr (completed_schedule hc s) hsch

/-- A well-formed command keeps the invariant out of reset, whatever becomes of it. -/
theorem exec_inv {c : Instr} {s t : State} (h : s.Inv) (hr : s.rst = false) (hwf : c.WellFormed) (he : exec c s = .next t) :
    t.Inv := by
  rcases exec_cases he with ⟨hd, rfl⟩ | ⟨-, -, rfl⟩ | ⟨-, code, -, rfl⟩ | ⟨-, hf, rfl⟩
  · exact inv_of_rst_low ((completed_rst c s).trans hr) (completed_scheduleOk h hd) (pendOk_of_idle rfl)
  · exact inv_raise h hr _
  · exact inv_raise h hr _
  · exact inv_of_rst_low hr h.1 ((pendOk_iff rfl).mpr ⟨hwf, (admits_iff s c).mpr hf⟩)

/-- A write to the idle core keeps the invariant: a command that it accepts has been decoded and has passed its checks. -/
theorem writeIdle_inv {r : Reg} {v : Word} {s t : State} (h : s.Inv) (hr : s.rst = false) (hp : s.pend = none)
    (hw : writeIdle r v s = .next t) : t.Inv := by
  rcases writeIdle_cases hw with ⟨i, hi, he, -⟩ | ⟨rfl, -⟩ | hstore
  · exact exec_inv h hr (decode_wellFormed hi) he
  · exact inv_raise h hr _
  · rw [hstore]
    exact inv_of_rst_low hr h.1 (pendOk_of_idle hp)

theorem busWrite_inv {r : Reg} {v : Word} {s t : State} (h : s.Inv) (hw : busWrite r v s = .next t) : t.Inv := by
  rcases Bool.eq_false_or_eq_true s.rst with hr | hr
  · cases (busWrite_reset hr r v).symm.trans hw
    exact h
  rcases Option.eq_none_or_eq_some s.pend with hp | ⟨c, hp⟩
  · exact writeIdle_inv h hr hp (busWrite_idle hr hp r v ▸ hw)
  · cases (busWrite_busy hr hp r v).symm.trans hw
    split
    · exact inv_raise h hr _
    · exact h

theorem sampleRst_inv {s : State} (h : s.Inv) (level : Bool) : (s.sampleRst level).Inv := by
  cases level with
  | false => exact inv_of_rst_low rfl h.1 h.2.1
  | true => exact inv_of_cleared rfl

theorem hostEvent_inv {e : HostEvent} {s t : State} (h : s.Inv) (he : hostEvent e s = .next t) : t.Inv := by
  rcases hostEvent_cases he with ⟨level, -, rfl⟩ | ⟨offset, -, -, rfl⟩ | ⟨offset, v, -, -, hw⟩
  · exact sampleRst_inv h level
  · obtain ⟨v, n, hread⟩ := busRead_eq (regAt offset) s
    exact hread ▸ inv_with_host h s.inbox (v :: s.replies) n
  · exact busWrite_inv h hw

/-- Settles O57: the slots of a step keep the invariant, and so does what the step then runs: a completion, an event or nothing. -/
theorem stepKeepsTheInvariant : Obligations.StepKeepsTheInvariant := by
  unfold Obligations.StepKeepsTheInvariant
  intro s t h hstep
  have hrun : s.rst = false → ∀ inbox n, ({ s with inbox := inbox, countdown := n } : State).Inv := fun hr _ _ =>
    inv_of_rst_low hr h.1 h.2.1
  rcases step_shape s with ⟨c, hr, hd, hs⟩ | ⟨-, -, -, hs⟩ | ⟨c, n, hr, -, -, -, hs⟩ | ⟨-, -, hs⟩ | ⟨e, rest, -, hs⟩ |
    ⟨c, n, e, rest, ⟨hr, -⟩, hs⟩ | ⟨e, rest, -, -, hs⟩ <;> rw [hs] at hstep
  · exact exec_inv h hr ((pendOk_iff hd.1).mp h.2.1).1 hstep
  · cases hstep
    exact h
  · cases hstep
    exact hrun hr s.inbox n
  · cases hstep
    exact inv_of_cleared rfl
  · exact hostEvent_inv (inv_with_host h rest s.replies s.draws) hstep
  · exact hostEvent_inv (hrun hr rest n) hstep
  · exact hostEvent_inv (inv_of_cleared rfl) hstep

/-- Settles O56: the reset state is cleared. -/
theorem resetMeetsTheInvariant : Obligations.ResetMeetsTheInvariant := by
  unfold Obligations.ResetMeetsTheInvariant
  exact inv_of_cleared rfl

/-! ## The schedule changes by KEYEXP and reset alone (10_state.md section 7) -/

/-- An event leaves the schedule, unless it is a high `rst`. -/
theorem hostEvent_schedule {e : HostEvent} {s t : State} (h : hostEvent e s = .next t) :
    t.schedule = s.schedule ∨ e = .rst true := by
  rcases hostEvent_cases h with ⟨level, rfl, rfl⟩ | ⟨offset, -, -, rfl⟩ | ⟨offset, v, -, -, hwrite⟩
  · cases level with
    | false => exact .inl rfl
    | true => exact .inr rfl
  · obtain ⟨v, n, hread⟩ := busRead_eq (regAt offset) s
    exact .inl (by rw [hread]; rfl)
  · rcases busWrite_cases hwrite with ⟨hp, i, hexec⟩ | hstore
    · have hnot : ¬ (i = .keyexp ∧ s.Due .keyexp) := by simp [hp]
      exact .inl ((exec_schedule hexec).resolve_right hnot)
    · exact .inl (by rw [hstore]; rfl)

/-- Settles O58: out of reset a step completes a command, takes an event or does neither, and of these only KEYEXP's completion and a
high `rst` write the schedule. -/
theorem keyScheduleIsImmutable : Obligations.KeyScheduleIsImmutable := by
  unfold Obligations.KeyScheduleIsImmutable
  intro s t h
  rw [← schedule_eq_iff]
  rcases step_shape s with ⟨c, hr, -, hs⟩ | ⟨-, -, -, hs⟩ | ⟨c, n, -, -, -, -, hs⟩ | ⟨hr, -⟩ |
    ⟨e, rest, ⟨-, -, hi⟩, hs⟩ | ⟨c, n, e, rest, ⟨-, -, -, hi⟩, hs⟩ | ⟨e, rest, hr, -⟩
  · exact (exec_schedule (hs.symm.trans h)).imp_right fun hd => .inl ⟨hr, hd.2⟩
  · cases hs.symm.trans h
    exact .inl rfl
  · cases hs.symm.trans h
    exact .inl rfl
  · exact .inr (.inr (.inl hr))
  · exact (hostEvent_schedule (hs.symm.trans h)).imp_right fun he => .inr (.inr ⟨rest, by rw [hi, he]⟩)
  · exact (hostEvent_schedule (hs.symm.trans h)).imp_right fun he => .inr (.inr ⟨rest, by rw [hi, he]⟩)
  · exact .inr (.inr (.inl hr))

end Sys2Proof.Machine

/-! # Proofs: acceptance, completion and frame of the commands (20_memory.md section 4, 60_exceptions.md section 2) -/

namespace Sys2Proof.Machine

/-! ## Acceptance (R47, R52, R219) -/

/-- Settles O17: a state that admits a command fails none of its checks. -/
theorem admittedCommandIsAccepted : Obligations.AdmittedCommandIsAccepted := by
  unfold Obligations.AdmittedCommandIsAccepted
  exact fun c s hp hadm => exec_accept hp ((admits_iff s c).mp hadm)

/-- Every round-keyed command reads round keys. -/
theorem readsRoundKeys_of_roundIndex {c : Instr} {i : Nat} (h : c.roundIndex = some i) : c.readsRoundKeys = true := by
  cases c
  case addrk | encrnd | encfin | decrnd | decfin => rfl
  all_goals cases h

/-- A command is admitted where KEYEXP has a legal size, a reader of round keys has a schedule, and a round index is in range. -/
theorem admits_of_checks {c : Instr} {s : State} (hsize : ¬ (c = .keyexp ∧ s.ksize = 3#2))
    (hkey : ¬ (c.readsRoundKeys = true ∧ s.ksv = false)) (hround : ¬ ∃ i, c.roundIndex = some i ∧ s.nr.toNat < i) :
    s.admits c = true := by
  cases c
  case keyexp => exact decide_eq_true fun h => hsize ⟨rfl, h⟩
  case encblk | decblk => simpa [State.admits, Instr.readsRoundKeys] using hkey
  case addrk | encrnd | encfin | decrnd | decfin =>
    simpa [State.admits, Instr.readsRoundKeys, Instr.roundIndex] using And.intro hkey hround
  all_goals rfl

/-- The order of the checks (R219): CONFIG, then NOKEY, then RANGE. -/
theorem failedCheck_getD (c : Instr) (s : State) :
    (s.failedCheck c).getD .none =
      (if c = .keyexp ∧ s.ksize = 3#2 then .config
      else if c.readsRoundKeys = true ∧ s.ksv = false then .nokey
      else if (∃ i, c.roundIndex = some i ∧ s.nr.toNat < i) then .range
      else .none) := by
  split
  next hsize =>
    obtain ⟨rfl, hksize⟩ := hsize
    rw [State.failedCheck, configCheck_of_reserved hksize, Option.getD_some]
  next hsize =>
    split
    next hkey => rw [failedCheck_of_no_schedule hkey.1 hkey.2, Option.getD_some]
    next hkey =>
      split
      next hround =>
        obtain ⟨i, hi, hlt⟩ := hround
        have hksv : s.ksv = true := by simpa [readsRoundKeys_of_roundIndex hi] using hkey
        rw [failedCheck_of_roundIndex hi, roundCheck_of_gt hksv hlt, Option.getD_some]
      next hround => rw [(admits_iff s c).mp (admits_of_checks hsize hkey hround), Option.getD_none]

/-- Settles O15: ERR = 0 takes the code of the first failing check, and where there is none the command is accepted. -/
theorem firstFailingCheckDecides : Obligations.FirstFailingCheckDecides := by
  unfold Obligations.FirstFailingCheckDecides
  intro c s hp herr
  rw [← failedCheck_getD]
  rcases Option.eq_none_or_eq_some (s.failedCheck c) with hf | ⟨code, hf⟩
  · exact ⟨_, exec_accept hp hf, by simp [hf, herr], fun _ => rfl, fun h => absurd herr h⟩
  · have hcode : code ≠ .none := by rcases failedCheck_code hf with rfl | rfl | rfl <;> decide
    refine ⟨_, exec_failedCheck hp hf, by simp [hf, herr], fun h => absurd h ?_, fun _ => by simp [hp]⟩
    simpa [herr] using hcode

/-! ## Completion (R52) -/

/-- Settles O18: NOP writes nothing and CLRERR only ERR. -/
theorem nopAndClrerrComplete : Obligations.NopAndClrerrComplete := by
  unfold Obligations.NopAndClrerrComplete
  exact ⟨fun _ h => exec_due h, fun _ h => exec_due h⟩

/-- AddRoundKey with a round key takes byte r of word 4i+c of the schedule. -/
theorem addRoundKey_roundKey (S : Block) (ks : Vector Word 60) (i : Nat) :
    addRoundKey S (roundKey ks i) = Block.ofFn fun r c => S.get r c ^^^ wbyte (ksWord ks (4 * i + c.val)) r := by
  refine Block.ext_get fun r c => ?_
  rw [get_addRoundKey, get_roundKey, Block.get_ofFn]

/-- Settles O20: the write of ADDRK is AddRoundKey with round key i, spelled out by its bytes. -/
theorem addrkCompletes : Obligations.AddrkCompletes := by
  unfold Obligations.AddrkCompletes
  intro i s h
  rw [exec_due h, State.completed, addRoundKey_roundKey]
  rfl

/-- Settles O21: SUBB and ISUBB write SubBytes and InvSubBytes of ST, which are defined byte by byte. -/
theorem substitutionCommandsComplete : Obligations.SubstitutionCommandsComplete := by
  unfold Obligations.SubstitutionCommandsComplete
  exact ⟨fun _ h => exec_due h, fun _ h => exec_due h⟩

/-- R142. -/
@[simp] theorem get_shiftRows (S : Block) (r c : Fin 4) : (shiftRows S).get r c = S.get r (c + r) := Block.get_ofFn _ r c

/-- R170. -/
@[simp] theorem get_invShiftRows (S : Block) (r c : Fin 4) : (invShiftRows S).get r c = S.get r (c - r) :=
  Block.get_ofFn _ r c

/-- Settles O22: column c of row r comes from column c + r, respectively c - r, modulo 4. -/
theorem rowCommandsComplete : Obligations.RowCommandsComplete := by
  unfold Obligations.RowCommandsComplete
  refine ⟨fun s h => ⟨shiftRows s.st, exec_due h, ?left⟩, fun s h => ⟨invShiftRows s.st, exec_due h, ?right⟩⟩
  case left =>
    simp only [get_shiftRows]
    exact ⟨fun c => by rw [Fin.add_zero], ⟨rfl, rfl, rfl, rfl⟩, ⟨rfl, rfl, rfl, rfl⟩, ⟨rfl, rfl, rfl, rfl⟩⟩
  case right =>
    simp only [get_invShiftRows]
    exact ⟨fun c => by rw [sub_zero], ⟨rfl, rfl, rfl, rfl⟩, ⟨rfl, rfl, rfl, rfl⟩, ⟨rfl, rfl, rfl, rfl⟩⟩

/-- The byte that a matrix of coefficients puts at `[r][c]` (R143, R172). -/
theorem get_matrixColumns (m : List (List Byte)) (S : Block) (r c : Fin 4) :
    (matrixColumns m S).get r c =
      gmul (coefficient m r 0) (S.get 0 c) ^^^ gmul (coefficient m r 1) (S.get 1 c) ^^^
        gmul (coefficient m r 2) (S.get 2 c) ^^^ gmul (coefficient m r 3) (S.get 3 c) := Block.get_ofFn _ r c

/-- Settles O23: the four rows of M, where 1 is the identity of gmul, and the four rows of IM. -/
theorem columnCommandsComplete : Obligations.ColumnCommandsComplete := by
  unfold Obligations.ColumnCommandsComplete
  refine ⟨fun s h => ⟨mixColumns s.st, exec_due h, fun c => ?mix⟩, fun s h => ⟨invMixColumns s.st, exec_due h, fun c => ?inv⟩⟩
  case mix =>
    simp only [mixColumns, get_matrixColumns, mixMatrix, coefficient]
    refine ⟨?_, ?_, ?_, ?_⟩ <;> simp
  case inv => exact ⟨get_matrixColumns .., get_matrixColumns .., get_matrixColumns .., get_matrixColumns ..⟩

/-- Settles O24: the writes of ENCRND and ENCFIN are EncRound and EncFinal of ST. -/
theorem encryptionRoundsComplete : Obligations.EncryptionRoundsComplete := by
  unfold Obligations.EncryptionRoundsComplete
  exact ⟨fun _ _ h => exec_due h, fun _ _ h => exec_due h⟩

/-- Settles O25: the writes of DECRND and DECFIN are DecRound and DecFinal of ST. -/
theorem decryptionRoundsComplete : Obligations.DecryptionRoundsComplete := by
  unfold Obligations.DecryptionRoundsComplete
  exact ⟨fun _ _ h => exec_due h, fun _ _ h => exec_due h⟩

/-- Settles O26: the writes of ENCBLK and DECBLK are the cipher of ST and RCTR as the sequence leaves it. -/
theorem blockCommandsComplete : Obligations.BlockCommandsComplete := by
  unfold Obligations.BlockCommandsComplete
  exact ⟨fun _ h => ⟨_, exec_due h⟩, fun _ h => ⟨_, exec_due h⟩⟩

/-- Settles O27: the write of each is its byte in RESULT. -/
theorem scalarCommandsComplete : Obligations.ScalarCommandsComplete := by
  unfold Obligations.ScalarCommandsComplete
  exact ⟨fun _ _ _ h => exec_due h, fun _ _ h => exec_due h, fun _ _ h => exec_due h⟩

/-- Settles O19: KEYEXP writes the new schedule for the row that KSIZE selects. -/
theorem keyexpCompletes : Obligations.KeyexpCompletes := by
  unfold Obligations.KeyexpCompletes
  intro s nk nr hd hrow
  obtain ⟨hnk, hnr⟩ : nkOf s.ksize = nk ∧ nrOf s.ksize = nr := by
    rcases hrow with ⟨hk, rfl, rfl⟩ | ⟨hk, rfl, rfl⟩ | ⟨hk, rfl, rfl⟩ <;> rw [hk] <;> exact ⟨rfl, rfl⟩
  subst hnk hnr
  refine ⟨s.newSchedule, ?_, fun i => getElem_newSchedule s i.isLt⟩
  rw [exec_due hd, State.completed, State.expandKey, State.finish]

/-- `KS[n]` is the word of the RAM at n. -/
theorem ksWord_of_lt (ks : Vector Word 60) {n : Nat} (h : n < 60) : ksWord ks n = ks[n] := dif_pos h

/-- The words the expansion starts from are the key's (R23). -/
theorem getD_keyWords (key : Vector Word 8) {nk n : Nat} (hn : n < nk) (h8 : n < 8) :
    (keyWords key nk).getD n 0#32 = key[n] := by
  simp [keyWords, hn, h8, List.getD_eq_getElem?_getD]

/-- The expansion keeps the words of its key. -/
theorem getD_expand_keyWords (key : Vector Word 8) {nk nr n : Nat} (hn : n < nk) (h8 : n < 8) :
    (expand (keyWords key nk) nk nr).getD n 0#32 = key[n] := by
  have hlen : n < (keyWords key nk).length := by simp [keyWords, hn, h8]
  rw [expand, getD_extend_of_lt hlen, getD_keyWords key hn h8]

/-- Settles O55: the new schedule begins with the key's words, for a key is shorter than any schedule, and ends in zeros. -/
theorem completedScheduleHasItsShape : Obligations.CompletedScheduleHasItsShape := by
  unfold Obligations.CompletedScheduleHasItsShape
  intro s hd hksize
  refine ⟨_, exec_due hd, ?nr, fun n hn h8 => ?key, fun n hlo hn => ?zero⟩
  case nr => exact (congrArg BitVec.toNat s.expandKey_nr).trans (toNat_ofNat_nrOf s.ksize)
  all_goals
    have hks : ((s.completed .keyexp).finish).ks = s.newSchedule := s.expandKey_ks
    rw [hks, ksWord_of_lt _ (by omega), getElem_newSchedule]
  case key =>
    have hshort : n < scheduleWords (nrOf s.ksize) := by
      rw [scheduleWords]
      rcases keySize_cases hksize with ⟨-, -, hr⟩ | ⟨-, -, hr⟩ | ⟨-, -, hr⟩ <;> omega
    rw [if_pos hshort, getD_expand_keyWords s.key hn h8]
  case zero => exact if_neg (Nat.not_lt.mpr hlo)

/-! ## Frames -/

/-- What a command does: it completes with its writes, or it moves no more than ERR, PEND and the model's counters, and records no
error but BUSY or that of its first failing check, over NONE only. -/
theorem exec_frame {c : Instr} {s t : State} (h : exec c s = .next t) :
    (s.Due c ∧ t = (s.completed c).finish) ∨
      (¬ s.Due c ∧ ∃ err pend n d, t = { s with err := err, pend := pend, countdown := n, draws := d } ∧
        (err = s.err ∨ (s.err = .none ∧ (err = .busy ∨ s.failedCheck c = some err)))) := by
  have hidle : s.pend = none → ¬ s.Due c := by simp +contextual
  have hraise : ∀ code, s.err = .none ∧ s.raise code = { s with err := code } ∨ s.raise code = s := fun code => by
    by_cases herr : s.err = .none <;> simp [State.raise, herr]
  rcases exec_cases h with hdone | ⟨hd, -, rfl⟩ | ⟨hp, code, hf, rfl⟩ | ⟨hp, -, rfl⟩
  · exact .inl hdone
  · rcases hraise .busy with ⟨herr, hset⟩ | hkeep
    · exact .inr ⟨hd, _, _, _, _, hset, .inr ⟨herr, .inl rfl⟩⟩
    · exact .inr ⟨hd, _, _, _, _, hkeep, .inl rfl⟩
  · rcases hraise code with ⟨herr, hset⟩ | hkeep
    · exact .inr ⟨hidle hp, _, _, _, _, hset, .inr ⟨herr, .inr hf⟩⟩
    · exact .inr ⟨hidle hp, _, _, _, _, hkeep, .inl rfl⟩
  · exact .inr ⟨hidle hp, _, _, _, _, rfl, .inl rfl⟩

/-- The writes of a state command: ST, and RCTR for the block commands. -/
theorem completed_of_writesSt {c : Instr} (h : c.writesSt = true) (s : State) :
    ∃ S q, s.completed c = { s with st := S, rctr := q } ∧ (q = s.rctr ∨ c = .encblk ∨ c = .decblk) := by
  cases c
  case nop | keyexp | clrerr | gfmul | sbox | isbox => cases h
  case encblk => exact ⟨_, _, rfl, .inr (.inl rfl)⟩
  case decblk => exact ⟨_, _, rfl, .inr (.inr rfl)⟩
  all_goals exact ⟨_, _, rfl, .inl rfl⟩

/-- The checks of a state command are NOKEY and RANGE. -/
theorem failedCheck_code_of_writesSt {c : Instr} {s : State} {code : ErrCode} (hc : c.writesSt = true)
    (h : s.failedCheck c = some code) : code = .nokey ∨ code = .range := by
  cases c
  case keyexp => cases hc
  case encblk | decblk => exact .inl (keyCheck_code h)
  case addrk | encrnd | encfin | decrnd | decfin => exact roundCheck_code h
  all_goals cases h

/-- Settles O28: a state command completes by writing ST and RCTR, and records BUSY, NOKEY or RANGE otherwise. -/
theorem stateCommandsWriteStOnly : Obligations.StateCommandsWriteStOnly := by
  unfold Obligations.StateCommandsWriteStOnly
  intro c s t hc h
  rcases exec_frame h with ⟨hd, rfl⟩ | ⟨hd, err, pend, n, d, rfl, herr⟩
  · obtain ⟨S, q, hdone, hrctr⟩ := completed_of_writesSt hc s
    rw [hdone]
    exact ⟨rfl, rfl, rfl, rfl, rfl, rfl, rfl, rfl, rfl, rfl, .inr hd, .inl rfl, hrctr⟩
  · have hcode := fun hf => failedCheck_code_of_writesSt (s := s) (code := err) hc hf
    exact ⟨rfl, rfl, rfl, rfl, rfl, rfl, rfl, rfl, rfl, rfl, .inl rfl,
      herr.imp_right fun ⟨hnone, herr⟩ => ⟨hnone, hd, herr.imp_right hcode⟩, .inl rfl⟩

/-- Settles O29: a scalar command completes by writing RESULT and has no check to fail. -/
theorem scalarCommandsWriteResultOnly : Obligations.ScalarCommandsWriteResultOnly := by
  unfold Obligations.ScalarCommandsWriteResultOnly
  intro c s t hc h
  have hdone : ∃ v, s.completed c = s.setResult v := by
    rcases hc with ⟨a, b, rfl⟩ | ⟨a, rfl⟩ | ⟨a, rfl⟩ <;> exact ⟨_, rfl⟩
  have hcheck : s.failedCheck c = none := by rcases hc with ⟨a, b, rfl⟩ | ⟨a, rfl⟩ | ⟨a, rfl⟩ <;> rfl
  rcases exec_frame h with ⟨hd, rfl⟩ | ⟨hd, err, pend, n, d, rfl, herr⟩
  · obtain ⟨v, hv⟩ := hdone
    rw [hv]
    exact ⟨rfl, rfl, rfl, rfl, rfl, rfl, rfl, rfl, rfl, rfl, rfl, .inr hd, .inl rfl⟩
  · have hbusy : ¬ s.failedCheck c = some err := by simp [hcheck]
    exact ⟨rfl, rfl, rfl, rfl, rfl, rfl, rfl, rfl, rfl, rfl, rfl, .inl rfl,
      herr.imp_right fun ⟨hnone, herr⟩ => ⟨hnone, hd, herr.resolve_right hbusy⟩⟩

/-- The writes of a control command: CLRERR writes ERR, KEYEXP the schedule. -/
theorem completed_of_control {c : Instr} (hc : c = .nop ∨ c = .clrerr ∨ c = .keyexp) (s : State) :
    ∃ ks ksv nr err, s.completed c = { s with ks := ks, ksv := ksv, nr := nr, err := err } ∧
      ((ks = s.ks ∧ ksv = s.ksv ∧ nr = s.nr) ∨ c = .keyexp) ∧ (err = s.err ∨ (c = .clrerr ∧ err = .none)) := by
  rcases hc with rfl | rfl | rfl
  · exact ⟨_, _, _, _, rfl, .inl ⟨rfl, rfl, rfl⟩, .inl rfl⟩
  · exact ⟨_, _, _, _, rfl, .inl ⟨rfl, rfl, rfl⟩, .inr ⟨rfl, rfl⟩⟩
  · exact ⟨_, _, _, _, rfl, .inr rfl, .inl rfl⟩

/-- The check of a control command is KEYEXP's CONFIG. -/
theorem failedCheck_code_of_control {c : Instr} {s : State} {code : ErrCode} (hc : c = .nop ∨ c = .clrerr ∨ c = .keyexp)
    (h : s.failedCheck c = some code) : c = .keyexp ∧ code = .config := by
  rcases hc with rfl | rfl | rfl
  · cases h
  · cases h
  · exact ⟨rfl, configCheck_code h⟩

/-- Settles O30: at completion CLRERR writes ERR and KEYEXP the schedule; otherwise only BUSY or KEYEXP's CONFIG is recorded. -/
theorem controlCommandsLeaveTheDatapath : Obligations.ControlCommandsLeaveTheDatapath := by
  unfold Obligations.ControlCommandsLeaveTheDatapath
  intro c s t hc h
  rcases exec_frame h with ⟨hd, rfl⟩ | ⟨hd, err, pend, n, d, rfl, herr⟩
  · obtain ⟨ks, ksv, nr, err, hdone, hsch, herr⟩ := completed_of_control hc s
    rw [hdone]
    exact ⟨rfl, rfl, rfl, rfl, rfl, rfl, rfl, rfl, rfl, hsch.imp_right fun hk => ⟨hk, hk ▸ hd⟩,
      herr.imp_right fun ⟨hk, hnone⟩ => .inl ⟨hk, hk ▸ hd, hnone⟩⟩
  · have hcode := fun hf => failedCheck_code_of_control (s := s) (code := err) hc hf
    exact ⟨rfl, rfl, rfl, rfl, rfl, rfl, rfl, rfl, rfl, .inl ⟨rfl, rfl, rfl⟩,
      herr.imp_right fun ⟨hnone, herr⟩ => .inr ⟨hnone, hd, herr.imp_right hcode⟩⟩

end Sys2Proof.Machine

/-! # Proofs: the slots of a step (20_memory.md sections 2 to 4 and 7, 60_exceptions.md section 1) -/

namespace Sys2Proof.Machine

/-! ## Events with and without a meaning (R43, R44, R60; log 9) -/

/-- An ordinary access is an aligned read or an aligned write. -/
theorem ordinary_cases {e : HostEvent} (h : e.ordinary = true) :
    ∃ offset, offset.extractLsb' 0 2 = 0#2 ∧ (e = readEvent offset ∨ ∃ v, e = writeEvent offset v) := by
  cases e with
  | otherHost | rst => cases h
  | access a =>
    obtain ⟨offset, width, op⟩ := a
    obtain ⟨rfl, ha⟩ : width = .word ∧ offset.extractLsb' 0 2 = 0#2 := by
      simpa [HostEvent.ordinary, misaligned] using h
    cases op with
    | read => exact ⟨offset, ha, .inl rfl⟩
    | write v => exact ⟨offset, ha, .inr ⟨v, rfl⟩⟩

theorem hostEvent_otherHost (a : Access) (s : State) : hostEvent (.otherHost a) s = .refused .secondHost := rfl

theorem hostEvent_subWord {a : Access} (h : a.width ≠ .word) (s : State) :
    hostEvent (.access a) s = .refused .subWordAccess := by
  rw [hostEvent, busAccess]
  cases hw : a.width with
  | byte | half => rfl
  | word => exact absurd hw h

theorem hostEvent_misaligned {a : Access} (hw : a.width = .word) (ha : a.offset.extractLsb' 0 2 ≠ 0#2) (s : State) :
    hostEvent (.access a) s = .refused .misalignedAccess := by
  simp [hostEvent, busAccess, hw, misaligned, ha]

/-- An event without a meaning is an access of a second host, a sub-word one or a misaligned one. -/
theorem not_meaningful_cases {e : HostEvent} (h : e.meaningful = false) :
    (∃ a, e = .otherHost a) ∨ (∃ a, e = .access a ∧ a.width ≠ .word) ∨
      (∃ a, e = .access a ∧ a.width = .word ∧ a.offset.extractLsb' 0 2 ≠ 0#2) := by
  cases e with
  | rst => cases h
  | otherHost a => exact .inl ⟨a, rfl⟩
  | access a =>
    by_cases hw : a.width = .word
    · exact .inr (.inr ⟨a, rfl, hw, by simpa [HostEvent.meaningful, HostEvent.ordinary, hw, misaligned] using h⟩)
    · exact .inr (.inl ⟨a, rfl, hw⟩)

/-- An event without a meaning is refused alike in every state. -/
theorem hostEvent_of_not_meaningful {e : HostEvent} (h : e.meaningful = false) : ∃ r, ∀ s, hostEvent e s = .refused r := by
  rcases not_meaningful_cases h with ⟨a, rfl⟩ | ⟨a, rfl, hw⟩ | ⟨a, rfl, hw, ha⟩
  · exact ⟨_, hostEvent_otherHost a⟩
  · exact ⟨_, hostEvent_subWord hw⟩
  · exact ⟨_, hostEvent_misaligned hw ha⟩

/-- Every write answers a next state, for every command does. -/
theorem busWrite_next (r : Reg) (v : Word) (s : State) : ∃ t, busWrite r v s = .next t := by
  rcases Bool.eq_false_or_eq_true s.rst with hr | hr
  · exact ⟨_, busWrite_reset hr r v⟩
  rcases Option.eq_none_or_eq_some s.pend with hp | ⟨c, hp⟩
  · rw [busWrite_idle hr hp]
    cases r
    case cmd =>
      rcases decode_total v with ⟨i, hi⟩ | ⟨e, he⟩
      · simpa only [writeIdle, fetchCommand, hi] using exec_next i s
      · exact ⟨s.raise .illegal, by simp only [writeIdle, fetchCommand, he]⟩
    all_goals exact ⟨_, rfl⟩
  · exact ⟨_, busWrite_busy hr hp r v⟩

/-- An event with a meaning answers a next state. -/
theorem hostEvent_next {e : HostEvent} (h : e.meaningful = true) (s : State) : ∃ t, hostEvent e s = .next t := by
  cases e with
  | otherHost => cases h
  | rst level => exact ⟨_, rfl⟩
  | access a =>
    obtain ⟨offset, ha, he | ⟨v, he⟩⟩ := ordinary_cases (e := .access a) h <;> rw [he]
    · exact ⟨_, hostEvent_read ha s⟩
    · simpa only [hostEvent_write ha] using busWrite_next (regAt offset) v s

/-! ## Steps that take an event -/

/-- A step takes the next event unless a command is due out of reset. -/
theorem step_takes {s : State} {e : HostEvent} {rest : List HostEvent} (hi : s.inbox = e :: rest)
    (h : s.rst = true ∨ s.pend = none ∨ s.countdown ≠ 0) : ∃ u, step s = hostEvent e u := by
  cases hr : s.rst with
  | true => exact ⟨_, step_reset_event hr hi⟩
  | false =>
    obtain ⟨m, hs⟩ := step_event_of_not_due hr hi (h.resolve_left (by simp [hr]))
    exact ⟨_, hs⟩

/-- A step completes, finds no event, or takes the next event. -/
theorem step_next_or_takes (s : State) :
    (∃ t, step s = .next t) ∨
      ∃ e rest u, s.inbox = e :: rest ∧ (s.rst = true ∨ s.pend = none ∨ s.countdown ≠ 0) ∧ step s = hostEvent e u := by
  rcases step_shape s with ⟨c, -, -, hs⟩ | ⟨-, -, -, hs⟩ | ⟨c, n, -, -, -, -, hs⟩ | ⟨-, -, hs⟩ |
    ⟨e, rest, ⟨-, hp, hi⟩, hs⟩ | ⟨c, n, e, rest, ⟨-, -, hc, hi⟩, hs⟩ | ⟨e, rest, hr, hi, hs⟩
  · exact .inl (by simpa only [hs] using exec_next c s)
  · exact .inl ⟨_, hs⟩
  · exact .inl ⟨_, hs⟩
  · exact .inl ⟨_, hs⟩
  · exact .inr ⟨e, rest, _, hi, .inr (.inl hp), hs⟩
  · exact .inr ⟨e, rest, _, hi, .inr (.inr (by simp [hc])), hs⟩
  · exact .inr ⟨e, rest, _, hi, .inl hr, hs⟩

/-- Settles O8: a step that takes an event is refused exactly where the event has no meaning, and every other step is not. -/
theorem stepStopsOnlyOnMeaninglessAccesses : Obligations.StepStopsOnlyOnMeaninglessAccesses := by
  unfold Obligations.StepStopsOnlyOnMeaninglessAccesses
  constructor
  · intro s
    rcases step_next_or_takes s with hnext | ⟨e, rest, u, hi, htakes, hs⟩
    · exact .inl hnext
    rw [hs]
    cases hm : e.meaningful with
    | true => exact .inl (hostEvent_next hm u)
    | false =>
      refine .inr ⟨e, rest, hi, hm, htakes, ?_⟩
      rcases not_meaningful_cases hm with ⟨a, rfl⟩ | ⟨a, rfl, hw⟩ | ⟨a, rfl, hw, ha⟩
      · exact .inl ⟨a, rfl, hostEvent_otherHost a u⟩
      · exact .inr (.inl ⟨a, rfl, hw, hostEvent_subWord hw u⟩)
      · exact .inr (.inr ⟨a, rfl, hw, ha, hostEvent_misaligned hw ha u⟩)
  · intro s e rest hi htakes
    obtain ⟨u, hs⟩ := step_takes hi htakes
    rw [hs]
    refine ⟨fun a he => ?_, fun a he hw => ?_, fun a he hw ha => ?_⟩ <;> subst he
    · exact hostEvent_otherHost a u
    · exact hostEvent_subWord hw u
    · exact hostEvent_misaligned hw ha u

/-- Settles O9: where the step takes the access, the bus refuses it by its width, else by its offset. -/
theorem subWordAndMisalignedAccessesAreRefused : Obligations.SubWordAndMisalignedAccessesAreRefused := by
  unfold Obligations.SubWordAndMisalignedAccessesAreRefused
  have takes : ∀ {s : State} {a rest}, s.pend = none ∨ s.countdown ≠ 0 ∨ s.rst = true → s.inbox = .access a :: rest →
      ∃ u, step s = hostEvent (.access a) u := fun h hi => step_takes hi (by tauto)
  refine ⟨fun s a rest h hi hw => ?_, fun s a rest h hi hw ha => ?_⟩ <;> obtain ⟨u, hs⟩ := takes h hi <;> rw [hs]
  · exact hostEvent_subWord hw u
  · exact hostEvent_misaligned hw ha u

/-! ## Running commands (R52, R53, R54) -/

/-- An ordinary access taken while a command runs moves no more than the countdown, ERR, the replies and the draws. -/
theorem step_running_ordinary {s : State} {c : Instr} {n : Nat} {e : HostEvent} {rest : List HostEvent}
    (h : s.RunningNext c n e rest) (he : e.ordinary = true) :
    ∃ err replies draws, step s =
      .next { s with inbox := rest, countdown := n, err := err, replies := replies, draws := draws } := by
  obtain ⟨offset, ha, rfl | ⟨v, rfl⟩⟩ := ordinary_cases he
  · exact ⟨_, _, _, step_running_read h ha⟩
  · exact ⟨_, _, _, step_running_write h ha⟩

/-- A slot of a running command whose host makes only ordinary accesses counts down and leaves the datapath. -/
theorem step_running {s : State} {c : Instr} {n : Nat} (hr : s.rst = false) (hp : s.pend = some c)
    (hc : s.countdown = n + 1) (hord : ∀ e ∈ s.inbox, e.ordinary = true) :
    ∃ inbox err replies draws, (∀ e ∈ inbox, HostEvent.ordinary e = true) ∧ step s =
      .next { s with inbox := inbox, countdown := n, err := err, replies := replies, draws := draws } := by
  cases hi : s.inbox with
  | nil => exact ⟨s.inbox, _, _, _, hord, step_running_empty hr hp hc hi⟩
  | cons e rest =>
    rw [hi] at hord
    obtain ⟨he, hrest⟩ := List.forall_mem_cons.mp hord
    obtain ⟨err, replies, draws, hs⟩ := step_running_ordinary ⟨hr, hp, hc, hi⟩ he
    exact ⟨rest, err, replies, draws, hrest, hs⟩

/-- After its countdown a running command is due, and the datapath is as before. -/
theorem run_countdown {s : State} {c : Instr} {n : Nat} (hr : s.rst = false) (hp : s.pend = some c) (hc : s.countdown = n)
    (hord : ∀ e ∈ s.inbox, e.ordinary = true) :
    ∃ inbox err replies draws, Host.Core.run Sys2Proof.core n s =
      .next { s with inbox := inbox, countdown := 0, err := err, replies := replies, draws := draws } := by
  induction n generalizing s with
  | zero =>
    have hs : s = { s with countdown := 0 } := by rw [← hc]
    exact ⟨s.inbox, s.err, s.replies, s.draws, congrArg Host.Outcome.next hs⟩
  | succ n ih =>
    obtain ⟨inbox, err, replies, draws, hrest, hs⟩ := step_running hr hp hc hord
    rw [run_next hs]
    exact ih hr hp rfl hrest

/-- Settles O60: the countdown runs to 0 in as many steps, and the step of a due command is its completion. -/
theorem acceptedCommandsComplete : Obligations.AcceptedCommandsComplete := by
  unfold Obligations.AcceptedCommandsComplete
  intro s c hr hp hord
  obtain ⟨inbox, err, replies, draws, hrun⟩ := run_countdown hr hp rfl hord
  have hdue : ({ s with inbox := inbox, countdown := 0, err := err, replies := replies, draws := draws } : State).Due c :=
    ⟨hp, rfl⟩
  have hdone := fun h => (step_due h hdue).trans (exec_due hdue)
  exact ⟨_, _, hrun, hdue, hr, rfl, rfl, rfl, rfl, rfl, rfl, rfl, rfl, rfl,
    run_snoc hrun (hdone hr), exec_due hdue, rfl⟩

/-! ## The end of a run (70_reset_and_hazards.md R264) -/

/-- No command replies to the host. -/
theorem exec_replies {c : Instr} {s t : State} (h : exec c s = .next t) : t.replies = s.replies := by
  have hdone : (s.completed c).replies = s.replies := by
    cases c
    case keyexp => exact s.expandKey_replies
    case encblk => exact s.encryptBlock_replies
    case decblk => exact s.decryptBlock_replies
    all_goals rfl
  rcases exec_frame h with ⟨-, rfl⟩ | ⟨-, err, pend, n, d, rfl, -⟩
  · exact hdone
  · rfl

/-- A poll that ends a run is taken by the idle core: a completion replies nothing, and a running command reads BUSY = 1. -/
theorem lastPoll_idle {s t : State} (h : s.LastPoll t) :
    s.pend = none ∧ t = { s with inbox := [], replies := s.statusIdle :: s.replies } := by
  obtain ⟨hr, hi, hs, v, hv, hbusy⟩ := h
  rcases Option.eq_none_or_eq_some s.pend with hp | ⟨c, hp⟩
  · cases (step_idle_read ⟨hr, hp, hi⟩ rfl).symm.trans hs
    exact ⟨hp, rfl⟩
  exfalso
  cases hc : s.countdown with
  | zero =>
    have hkeep := exec_replies ((step_due hr ⟨hp, hc⟩).symm.trans hs)
    exact List.cons_ne_self v s.replies (hv.symm.trans hkeep)
  | succ n =>
    cases (step_running_read ⟨hr, hp, hc, hi⟩ rfl).symm.trans hs
    obtain ⟨rfl, -⟩ := List.cons.inj hv
    exact absurd hbusy (by simp [regAt, State.readBusy, statusBusy_busy])

/-- What reads return, and KS, do not depend on the host's side. -/
theorem final_with_host (s : State) (inbox : List HostEvent) (replies : List Word) :
    ({ s with inbox := inbox, replies := replies } : State).final = s.final := rfl

/-- Word k of the final state's window is what a read at offset 4k returns. -/
theorem getElem_final_window (s : State) (k : Fin 64) :
    s.final.window[k] = s.readIdle (regAt (BitVec.ofNat 8 (4 * k.val))) := Vector.getElem_ofFn k.isLt

/-- A run that is over has left the core quiet. -/
theorem quiet_of_lastPoll {s t : State} (h : s.LastPoll t) : t.Quiet := by
  obtain ⟨hp, rfl⟩ := lastPoll_idle h
  exact ⟨h.1, hp, rfl⟩

/-- The offsets 4k are aligned. -/
theorem word_aligned (k : Fin 64) : (BitVec.ofNat 8 (4 * k.val)).extractLsb' 0 2 = 0#2 := by
  revert k
  decide

/-- Settles O7: the slots are those of `step_shape`, a poll that ends a run is the idle core's last access, and the window of the
final state is what an idle read of each word returns. -/
theorem stepCompletesOrIdles : Obligations.StepCompletesOrIdles := by
  unfold Obligations.StepCompletesOrIdles
  refine ⟨fun s c => step_due, fun s c n => step_running_empty, fun s c n e rest h he => ?running,
    fun s ⟨hr, hp, hi⟩ => step_idle_empty hr hp hi, fun s h => ?poll, fun s t h => ?last, fun start t ⟨k, s, _, h⟩ => ?ended,
    fun t u k ⟨hr, hp, hi⟩ hs => ?window⟩
  case running =>
    obtain ⟨err, replies, draws, hs⟩ := step_running_ordinary h he
    exact ⟨_, hs, rfl, h.2.1, rfl⟩
  case poll =>
    obtain ⟨hr, hp, hi⟩ := h
    exact ⟨_, hr, hi, step_idle_read ⟨hr, hp, hi⟩ rfl, s.statusIdle, rfl, statusIdle_busy hp⟩
  case last =>
    obtain ⟨hp, rfl⟩ := lastPoll_idle h
    exact ⟨hp, quiet_of_lastPoll h, rfl, final_with_host s _ _⟩
  case ended =>
    have hquiet := quiet_of_lastPoll h
    exact ⟨hquiet, step_idle_empty hquiet.1 hquiet.2.1 hquiet.2.2⟩
  case window =>
    cases (step_idle_read (s := { t with inbox := [readEvent _] }) ⟨hr, hp, rfl⟩ (word_aligned k)).symm.trans hs
    exact ⟨congrArg (· :: t.replies) (getElem_final_window t k).symm, final_with_host t _ _, rfl⟩

/-! ## The loader and the reserved offsets (R45, R50) -/

theorem step_data_write {s : State} {v : Word} {rest : List HostEvent} (c : Fin 4)
    (h : s.IdleNext (writeEvent (BitVec.ofNat 8 (0x10 + 4 * c.val)) v) rest) :
    step s = .next { s with inbox := rest, st := s.st.setCol c (Column.ofWord v) } := by
  rw [step_idle_write h (data_aligned c), regAt_data]
  rfl

theorem wbyte_append_zero (b0 b1 b2 b3 : Byte) : wbyte (b0 ++ b1 ++ b2 ++ b3) 0 = b0 := by
  unfold wbyte
  iterate 3 rw [BitVec.extractLsb'_append_eq_of_le (by decide)]
  exact BitVec.extractLsb'_eq_self

theorem wbyte_append_one (b0 b1 b2 b3 : Byte) : wbyte (b0 ++ b1 ++ b2 ++ b3) 1 = b1 := by
  unfold wbyte
  iterate 2 rw [BitVec.extractLsb'_append_eq_of_le (by decide)]
  exact BitVec.extractLsb'_append_eq_right

theorem wbyte_append_two (b0 b1 b2 b3 : Byte) : wbyte (b0 ++ b1 ++ b2 ++ b3) 2 = b2 := by
  unfold wbyte
  rw [BitVec.extractLsb'_append_eq_of_le (by decide)]
  exact BitVec.extractLsb'_append_eq_right

theorem wbyte_append_three (b0 b1 b2 b3 : Byte) : wbyte (b0 ++ b1 ++ b2 ++ b3) 3 = b3 := BitVec.extractLsb'_append_eq_right

/-- A word packed with its lowest-numbered byte first loads its bytes from row 0 down. -/
theorem Column.ofWord_append (b0 b1 b2 b3 : Byte) : Column.ofWord (b0 ++ b1 ++ b2 ++ b3) = ⟨b0, b1, b2, b3⟩ := by
  rw [Column.ofWord, Column.ofFn, wbyte_append_zero, wbyte_append_one, wbyte_append_two, wbyte_append_three]

/-- Settles O35: four writes set the four columns, each to the bytes of its word. -/
theorem loaderIsColumnMajor : Obligations.LoaderIsColumnMajor := by
  unfold Obligations.LoaderIsColumnMajor
  intro b s rest hr hp hi
  have load : ∀ (c : Fin 4) (v : Word) (rest : List HostEvent) (S : Block) (k : Nat),
      Host.Core.run Sys2Proof.core (k + 1)
        { s with inbox := writeEvent (BitVec.ofNat 8 (0x10 + 4 * c.val)) v :: rest, st := S } =
      Host.Core.run Sys2Proof.core k { s with inbox := rest, st := S.setCol c (Column.ofWord v) } :=
    fun c v rest S k => run_next (step_data_write (s := { s with inbox := _ :: rest, st := S }) c ⟨hr, hp, rfl⟩) k
  have first := run_next (step_data_write 0 ⟨hr, hp, hi⟩) 3
  refine ⟨_, first.trans <| (load 1 _ _ _ 2).trans <| (load 2 _ _ _ 1).trans <| load 3 _ _ _ 0, fun r c => ?_⟩
  simp only [Column.ofWord_append]
  fin_cases c <;> fin_cases r <;> rfl

/-- CMD and the reserved offsets are the registers that read as zero without one behind them. -/
theorem regAt_cmd_or_reserved {offset : BitVec 8} (h : offset = 0x04#8 ∨ 0x48#8 ≤ offset) :
    regAt offset = .cmd ∨ regAt offset = .reserved := h.imp (fun h => by rw [h]; rfl) regAt_of_le

/-- Settles O41: CMD and the offsets without a register read 0, idle and busy, and the latter are not guarded. -/
theorem reservedOffsetsReadZeroAndIgnoreWrites : Obligations.ReservedOffsetsReadZeroAndIgnoreWrites := by
  unfold Obligations.ReservedOffsetsReadZeroAndIgnoreWrites
  have hg : ∀ {offset : BitVec 8}, 0x48#8 ≤ offset → ¬ (regAt offset).guarded = true := fun h => by
    rw [regAt_of_le h]
    decide
  refine ⟨fun s offset rest h ha hoff => ?idle, fun s offset v rest h ha hoff => step_idle_write_of_not_guarded h ha (hg hoff),
    fun s c n offset rest h ha hoff => ?busy,
    fun s c n offset v rest h ha hoff => ⟨n, step_running_write_of_not_guarded h ha (hg hoff)⟩⟩
  case idle =>
    rw [step_idle_read h ha]
    rcases regAt_cmd_or_reserved hoff with hreg | hreg <;> rw [hreg] <;> rfl
  case busy =>
    obtain ⟨t, d, ht, hreplies⟩ := step_running_read_replies h ha
    refine ⟨t, ht, ?_⟩
    rcases regAt_cmd_or_reserved hoff with hreg | hreg <;> rw [hreplies, hreg] <;> rfl

end Sys2Proof.Machine

/-! # Proofs: the key is revealed by no access (10_state.md section 7, 20_memory.md section 5) -/

namespace Sys2Proof.Machine

/-! ## What may differ between the steps of two states that differ in KEY alone -/

/-- `t` and `t'`, the answers to a step from `s` and from `s` with another KEY, agree but for KEY and what the spec leaves free: the
countdown of a command just accepted (log 2) and, where the step may draw, the newest reply (log 3). -/
abbrev AgreeButKey (s t t' : State) (mayDraw : Prop) : Prop :=
  { t' with key := t.key, countdown := t.countdown, replies := t.replies } = t ∧
    (t'.countdown = t.countdown ∨ (s.pend = none ∧ t.pend ≠ none)) ∧
    t'.replies.tail = t.replies.tail ∧ (t'.replies = t.replies ∨ mayDraw)

/-- Answers that differ in KEY alone agree. -/
theorem agreeButKey_of_eq {s t t' : State} {k : Vector Word 8} {mayDraw : Prop} (h : t' = { t with key := k }) :
    AgreeButKey s t t' mayDraw := by
  subst h
  exact ⟨rfl, .inl rfl, rfl, .inl rfl⟩

/-! ## Commands -/

/-- Only KEYEXP reads KEY. -/
theorem completed_with_key {c : Instr} (h : c ≠ .keyexp) (s : State) (k : Vector Word 8) :
    ({ s with key := k } : State).completed c = { s.completed c with key := k } := by
  cases c
  case keyexp => exact absurd rfl h
  all_goals rfl

/-- The checks do not read KEY. -/
theorem failedCheck_with_key (c : Instr) (s : State) (k : Vector Word 8) :
    ({ s with key := k } : State).failedCheck c = s.failedCheck c := by
  cases c <;> rfl

theorem raise_with_key (s : State) (code : ErrCode) (k : Vector Word 8) :
    ({ s with key := k } : State).raise code = { s.raise code with key := k } := by
  rw [State.raise_eq, State.raise_eq]

/-- A command that is not a completing KEYEXP does the same whatever KEY is; only the latency drawn at its acceptance may differ. -/
theorem exec_with_key {c : Instr} {s t : State} (h : exec c s = .next t) (hn : ¬ s.Due .keyexp) (k : Vector Word 8)
    (mayDraw : Prop) : ∃ t', exec c { s with key := k } = .next t' ∧ AgreeButKey s t t' mayDraw := by
  rcases exec_cases h with ⟨hd, rfl⟩ | ⟨hd, hp, rfl⟩ | ⟨hp, code, hf, rfl⟩ | ⟨hp, hf, rfl⟩
  · have hc : c ≠ .keyexp := fun hc => hn (hc ▸ hd)
    have hdone := congrArg State.finish (completed_with_key hc s k)
    exact ⟨_, exec_due (s := { s with key := k }) hd, agreeButKey_of_eq hdone⟩
  · obtain ⟨d, hp⟩ := Option.ne_none_iff_exists'.mp hp
    exact ⟨_, exec_busy (s := { s with key := k }) hp hd, agreeButKey_of_eq (raise_with_key s .busy k)⟩
  · exact ⟨_, exec_failedCheck (s := { s with key := k }) hp ((failedCheck_with_key c s k).trans hf),
      agreeButKey_of_eq (raise_with_key s code k)⟩
  · exact ⟨_, exec_accept (s := { s with key := k }) hp ((failedCheck_with_key c s k).trans hf), rfl,
      .inr ⟨hp, Option.some_ne_none c⟩, rfl, .inl rfl⟩

/-! ## Writes -/

/-- A write to the idle core does the same whatever KEY is, but for KEY itself. -/
theorem writeIdle_with_key {r : Reg} {v : Word} {s t : State} (h : writeIdle r v s = .next t) (hp : s.pend = none)
    (k : Vector Word 8) (mayDraw : Prop) :
    ∃ t', writeIdle r v { s with key := k } = .next t' ∧ AgreeButKey s t t' mayDraw := by
  cases r
  case cmd =>
    rcases decode_total v with ⟨i, hi⟩ | ⟨e, he⟩
    · simp only [writeIdle, fetchCommand, hi] at h ⊢
      exact exec_with_key h (by simp [hp]) k mayDraw
    · simp only [writeIdle, fetchCommand, he, Host.Outcome.next.injEq] at h ⊢
      subst h
      exact ⟨_, rfl, agreeButKey_of_eq (raise_with_key s .illegal k)⟩
  all_goals
    simp only [writeIdle, Host.Outcome.next.injEq] at h
    subst h
    exact ⟨_, rfl, agreeButKey_of_eq rfl⟩

theorem busWrite_with_key {r : Reg} {v : Word} {s t : State} (h : busWrite r v s = .next t) (k : Vector Word 8)
    (mayDraw : Prop) : ∃ t', busWrite r v { s with key := k } = .next t' ∧ AgreeButKey s t t' mayDraw := by
  rcases Bool.eq_false_or_eq_true s.rst with hr | hr
  · cases (busWrite_reset hr r v).symm.trans h
    exact ⟨_, busWrite_reset (s := { s with key := k }) hr r v, agreeButKey_of_eq rfl⟩
  rcases Option.eq_none_or_eq_some s.pend with hp | ⟨c, hp⟩
  · rw [busWrite_idle (s := { s with key := k }) hr hp]
    exact writeIdle_with_key (busWrite_idle hr hp r v ▸ h) hp k mayDraw
  · cases (busWrite_busy hr hp r v).symm.trans h
    refine ⟨_, busWrite_busy (s := { s with key := k }) hr hp r v, ?_⟩
    split
    · exact agreeButKey_of_eq (raise_with_key s .busy k)
    · exact agreeButKey_of_eq rfl

/-! ## Reads -/

/-- The registers whose read draws while a command runs (R53). -/
def Reg.drawnWhileBusy : Reg → Bool
  | .status | .result | .data _ | .ksdata => true
  | .ctrl | .cmd | .key _ | .ksidx | .reserved => false

/-- The offsets of those registers: STATUS, RESULT, DATA0..3 and KSDATA (R42). -/
theorem offset_of_drawnWhileBusy {offset : BitVec 8} (h : (regAt offset).drawnWhileBusy = true) :
    offset = 0x08#8 ∨ offset = 0x0C#8 ∨ offset = 0x10#8 ∨ offset = 0x14#8 ∨ offset = 0x18#8 ∨ offset = 0x1C#8 ∨
      offset = 0x44#8 := by
  unfold regAt at h
  split at h <;> simp_all [Reg.drawnWhileBusy]

/-- No other register shows a draw or KEY to a read while a command runs. -/
theorem readBusy_with_key {r : Reg} (h : ¬ r.drawnWhileBusy = true) (s : State) (k : Vector Word 8) (d d' : Word) :
    ({ s with key := k } : State).readBusy d' r = s.readBusy d r := by
  cases r
  case status | result | data | ksdata => exact absurd rfl h
  all_goals rfl

/-- No register shows KEY to a read of the idle core. -/
theorem readIdle_with_key (r : Reg) (s : State) (k : Vector Word 8) :
    ({ s with key := k } : State).readIdle r = s.readIdle r := by
  cases r <;> rfl

theorem busRead_busy {s : State} {c : Instr} (hr : s.rst = false) (hp : s.pend = some c) (r : Reg) :
    busRead r s = (s.reply (s.readBusy s.draw r)).drawn := by
  simp [busRead, hr, busy_of_pend hp]

theorem busRead_idle {s : State} (hr : s.rst = false) (hp : s.pend = none) (r : Reg) :
    busRead r s = s.reply (s.readIdle r) := by
  simp [busRead, hr, State.busy, hp]

/-- A read replies the same whatever KEY is, unless it draws. -/
theorem busRead_with_key (r : Reg) (s : State) (k : Vector Word 8) :
    AgreeButKey s (busRead r s) (busRead r { s with key := k })
      (s.rst = true ∨ (s.pend ≠ none ∧ r.drawnWhileBusy = true)) := by
  rcases Bool.eq_false_or_eq_true s.rst with hr | hr
  · rw [busRead_reset hr, busRead_reset (s := { s with key := k }) hr]
    exact ⟨rfl, .inl rfl, rfl, .inr (.inl hr)⟩
  rcases Option.eq_none_or_eq_some s.pend with hp | ⟨c, hp⟩
  · rw [busRead_idle hr hp, busRead_idle (s := { s with key := k }) hr hp, readIdle_with_key r s k]
    exact agreeButKey_of_eq rfl
  · rw [busRead_busy hr hp, busRead_busy (s := { s with key := k }) hr hp]
    refine ⟨rfl, .inl rfl, rfl, ?_⟩
    by_cases hd : r.drawnWhileBusy = true
    · exact .inr (.inr ⟨by simp [hp], hd⟩)
    · exact .inl (congrArg (· :: s.replies) (readBusy_with_key hd s k _ _))

/-! ## Events and steps -/

/-- The event is a read that draws: while `rst` is high, or of a register that is drawn while a command runs. -/
abbrev State.DrawsFor (s : State) (e : HostEvent) : Prop :=
  ∃ offset, e = readEvent offset ∧ (s.rst = true ∨ (s.pend ≠ none ∧
    (offset = 0x08#8 ∨ offset = 0x0C#8 ∨ offset = 0x10#8 ∨ offset = 0x14#8 ∨ offset = 0x18#8 ∨ offset = 0x1C#8 ∨
      offset = 0x44#8)))

/-- An event does the same whatever KEY is, but for KEY itself and what is free. -/
theorem hostEvent_with_key {e : HostEvent} {s t : State} (h : hostEvent e s = .next t) (k : Vector Word 8) :
    ∃ t', hostEvent e { s with key := k } = .next t' ∧ AgreeButKey s t t' (s.DrawsFor e) := by
  rcases hostEvent_cases h with ⟨level, rfl, rfl⟩ | ⟨offset, rfl, ha, rfl⟩ | ⟨offset, v, rfl, ha, hw⟩
  · cases level with
    | true => exact ⟨_, rfl, agreeButKey_of_eq rfl⟩
    | false => exact ⟨_, rfl, agreeButKey_of_eq rfl⟩
  · obtain ⟨hsame, hcount, htail, hreply⟩ := busRead_with_key (regAt offset) s k
    exact ⟨_, hostEvent_read ha _, hsame, hcount, htail, hreply.imp_right fun hdraw =>
      ⟨offset, rfl, hdraw.imp_right (And.imp_right offset_of_drawnWhileBusy)⟩⟩
  · rw [hostEvent_write ha]
    exact busWrite_with_key hw k _

/-- An event that one state refuses is refused by all. -/
theorem hostEvent_refused {e : HostEvent} {s : State} {r : Refusal} (h : hostEvent e s = .refused r) (u : State) :
    hostEvent e u = .refused r := by
  cases hm : e.meaningful with
  | true =>
    obtain ⟨t, ht⟩ := hostEvent_next hm s
    cases ht.symm.trans h
  | false =>
    obtain ⟨r', hr'⟩ := hostEvent_of_not_meaningful hm
    exact (hr' u).trans ((hr' s).symm.trans h)

/-- A refused step is refused whatever KEY is: it took an event without a meaning. -/
theorem step_refused_with_key {s : State} {r : Refusal} (h : step s = .refused r) (k : Vector Word 8) :
    step { s with key := k } = .refused r := by
  rcases step_next_or_takes s with ⟨t, ht⟩ | ⟨e, rest, u, hi, htakes, hs⟩
  · cases ht.symm.trans h
  · obtain ⟨u', hs'⟩ := step_takes (s := { s with key := k }) hi htakes
    exact hs'.trans (hostEvent_refused (hs.symm.trans h) u')

/-- A step that completes no KEYEXP does the same whatever KEY is, but for KEY itself and what is free. -/
theorem step_with_key {s t : State} (h : step s = .next t) (hn : ¬ s.Due .keyexp) (k : Vector Word 8) :
    ∃ t', step { s with key := k } = .next t' ∧ AgreeButKey s t t' (∃ e rest, s.inbox = e :: rest ∧ s.DrawsFor e) := by
  have weaken : ∀ {e rest t'}, s.inbox = e :: rest → AgreeButKey s t t' (s.DrawsFor e) →
      AgreeButKey s t t' (∃ e rest, s.inbox = e :: rest ∧ s.DrawsFor e) := fun hi ⟨hsame, hcount, htail, hreply⟩ =>
    ⟨hsame, hcount, htail, hreply.imp_right fun hdraw => ⟨_, _, hi, hdraw⟩⟩
  rcases step_shape s with ⟨c, hr, hd, hs⟩ | ⟨hr, hp, hi, hs⟩ | ⟨c, n, hr, hp, hc, hi, hs⟩ | ⟨hr, hi, hs⟩ |
    ⟨e, rest, ⟨hr, hp, hi⟩, hs⟩ | ⟨c, n, e, rest, ⟨hr, hp, hc, hi⟩, hs⟩ | ⟨e, rest, hr, hi, hs⟩ <;> rw [hs] at h
  · rw [step_due (s := { s with key := k }) hr hd]
    exact exec_with_key h hn k _
  · cases h
    exact ⟨_, step_idle_empty (s := { s with key := k }) hr hp hi, agreeButKey_of_eq rfl⟩
  · cases h
    exact ⟨_, step_running_empty (s := { s with key := k }) hr hp hc hi, agreeButKey_of_eq rfl⟩
  · cases h
    exact ⟨_, step_reset_empty (s := { s with key := k }) hr hi, agreeButKey_of_eq rfl⟩
  · obtain ⟨t', ht', hagree⟩ := hostEvent_with_key h k
    exact ⟨t', (step_idle_event (s := { s with key := k }) ⟨hr, hp, hi⟩).trans ht', weaken hi hagree⟩
  · obtain ⟨t', ht', hagree⟩ := hostEvent_with_key h k
    exact ⟨t', (step_running_event (s := { s with key := k }) ⟨hr, hp, hc, hi⟩).trans ht', weaken hi hagree⟩
  · exact ⟨t, (step_reset_event (s := { s with key := k }) hr hi).trans h, agreeButKey_of_eq rfl⟩

/-- Settles O59: of all commands only KEYEXP reads KEY and no read of the window does, so only the free values can tell two keys
apart. -/
theorem keyReachesNothingButTheSchedule : Obligations.KeyReachesNothingButTheSchedule := by
  unfold Obligations.KeyReachesNothingButTheSchedule
  refine fun s k hn => ⟨fun t h => ?_, fun r h => step_refused_with_key h k⟩
  obtain ⟨t', ht', hsame, hcount, htail, hreply⟩ := step_with_key h hn k
  exact ⟨t', ht', hsame, hcount, htail, hreply.imp_right fun ⟨e, rest, hi, offset, he, hdraw⟩ =>
    ⟨offset, rest, he ▸ hi, hdraw⟩⟩

end Sys2Proof.Machine

/-! # Proofs: the S-boxes, the inverse transformations and the ciphers (40_field_sbox.md, 42_round_encrypt.md, 43_round_decrypt.md) -/

namespace Sys2Proof.Machine

/-! ## The S-boxes (R103 to R105) -/

/-- INVSBOX undoes SBOX, entry by entry of the two tables. -/
@[simp] theorem invSubByte_subByte (x : Byte) : invSubByte (subByte x) = x := by
  revert x
  decide +kernel

/-- SBOX undoes INVSBOX: an injection of the 256 bytes reaches them all. -/
@[simp] theorem subByte_invSubByte (y : Byte) : subByte (invSubByte y) = y := by
  have hleft : Function.LeftInverse invSubByte subByte := invSubByte_subByte
  exact hleft.rightInverse_of_surjective (Finite.surjective_of_injective hleft.injective) y

/-- R103 and R104 at every byte: `ginv` is the inverse in the field, and the ROM is its affine map. -/
theorem ginv_inverse_and_affine (x : Byte) : (x ≠ 0 → gmul x (ginv x) = 1) ∧ subByte x = affine (ginv x) := by
  revert x
  decide +kernel

/-- Settles O45: the two tables are checked against each other, and the first against its construction, at every byte. -/
theorem sboxesComeFromTheirConstruction : Obligations.SboxesComeFromTheirConstruction := by
  unfold Obligations.SboxesComeFromTheirConstruction
  exact ⟨invSubByte_subByte, subByte_invSubByte, rfl, fun x => (ginv_inverse_and_affine x).1,
    fun x => (ginv_inverse_and_affine x).2⟩

/-! ## RotWord and the round constants (R121, R122) -/

/-- The low 24 bits of a word are its bytes 1 to 3. -/
theorem extractLsb'_low_append (b0 b1 b2 b3 : Byte) : (b0 ++ b1 ++ b2 ++ b3).extractLsb' 0 24 = b1 ++ b2 ++ b3 := by
  apply BitVec.eq_of_getElem_eq
  intro i hi
  simp only [BitVec.getElem_extractLsb', BitVec.getLsbD_append]
  grind

theorem rotWord_append (b0 b1 b2 b3 : Byte) : rotWord (b0 ++ b1 ++ b2 ++ b3) = b1 ++ b2 ++ b3 ++ b0 :=
  congrArg₂ (· ++ ·) (extractLsb'_low_append b0 b1 b2 b3) (wbyte_append_zero b0 b1 b2 b3)

/-- Settles O53: RotWord moves the top byte below the other three, and each of the ten constants doubles the one before. -/
theorem rotWordAndRoundConstants : Obligations.RotWordAndRoundConstants := by
  unfold Obligations.RotWordAndRoundConstants
  refine ⟨rotWord_append, rfl, fun j hlo hhi => ?_⟩
  interval_cases j <;> rfl

/-! ## The inverse transformations (R170 to R172) -/

@[simp] theorem invShiftRows_shiftRows (S : Block) : invShiftRows (shiftRows S) = S :=
  Block.ext_get fun r c => by rw [get_invShiftRows, get_shiftRows, sub_add_cancel]

@[simp] theorem shiftRows_invShiftRows (S : Block) : shiftRows (invShiftRows S) = S :=
  Block.ext_get fun r c => by rw [get_shiftRows, get_invShiftRows, add_sub_cancel_right]

@[simp] theorem invSubBytes_subBytes (S : Block) : invSubBytes (subBytes S) = S :=
  Block.ext_get fun r c => by rw [get_invSubBytes, get_subBytes, invSubByte_subByte]

@[simp] theorem subBytes_invSubBytes (S : Block) : subBytes (invSubBytes S) = S :=
  Block.ext_get fun r c => by rw [get_subBytes, get_invSubBytes, subByte_invSubByte]

/-- Doubling the second operand `i` times doubles the product `i` times. -/
theorem gmul_xtime_iterate_right (i : Nat) (a b : Byte) : gmul a (xtime^[i] b) = xtime^[i] (gmul a b) := by
  rw [gmul_comm, gmul_xtime_iterate_left, gmul_comm]

/-- The product is associative, for it is linear in the last operand and a single bit doubles. -/
theorem gmul_assoc (a b c : Byte) : gmul (gmul a b) c = gmul a (gmul b c) := by
  induction c using twoPow_xor_induction with
  | zero => simp only [gmul_zero_right]
  | bit i hi => rw [gmul_twoPow _ hi, gmul_twoPow _ hi, gmul_xtime_iterate_right]
  | sum x y hx hy => rw [gmul_xor_right, gmul_xor_right, gmul_xor_right, hx, hy]

/-- Entry `[r][c]` of the field product of two matrices (R172). -/
def matrixProduct (m n : List (List Byte)) (r c : Fin 4) : Byte :=
  gmul (coefficient m r 0) (coefficient n 0 c) ^^^ gmul (coefficient m r 1) (coefficient n 1 c) ^^^
    gmul (coefficient m r 2) (coefficient n 2 c) ^^^ gmul (coefficient m r 3) (coefficient n 3 c)

/-- Multiplying by two matrices is multiplying by their product, for the product of bytes is associative and distributes. -/
theorem get_matrixColumns_matrixColumns (m n : List (List Byte)) (S : Block) (r c : Fin 4) :
    (matrixColumns m (matrixColumns n S)).get r c =
      gmul (matrixProduct m n r 0) (S.get 0 c) ^^^ gmul (matrixProduct m n r 1) (S.get 1 c) ^^^
        gmul (matrixProduct m n r 2) (S.get 2 c) ^^^ gmul (matrixProduct m n r 3) (S.get 3 c) := by
  simp only [get_matrixColumns, matrixProduct, gmul_xor_right, gmul_xor_left, gmul_assoc]
  ac_rfl

/-- A matrix undoes another where their product is the identity. -/
theorem matrixColumns_cancel {m n : List (List Byte)} (h : ∀ r c, matrixProduct m n r c = if r = c then 1 else 0)
    (S : Block) : matrixColumns m (matrixColumns n S) = S := by
  refine Block.ext_get fun r c => ?_
  rw [get_matrixColumns_matrixColumns]
  fin_cases r <;> simp [h]

theorem matrixProduct_invMix_mix (r c : Fin 4) : matrixProduct invMixMatrix mixMatrix r c = if r = c then 1 else 0 := by
  revert r c
  decide

theorem matrixProduct_mix_invMix (r c : Fin 4) : matrixProduct mixMatrix invMixMatrix r c = if r = c then 1 else 0 := by
  revert r c
  decide

@[simp] theorem invMixColumns_mixColumns (S : Block) : invMixColumns (mixColumns S) = S :=
  matrixColumns_cancel matrixProduct_invMix_mix S

@[simp] theorem mixColumns_invMixColumns (S : Block) : mixColumns (invMixColumns S) = S :=
  matrixColumns_cancel matrixProduct_mix_invMix S

/-- Settles O47: rows shift back, the S-boxes undo each other byte by byte, and the matrices are inverse both ways. -/
theorem inverseTransformationsUndo : Obligations.InverseTransformationsUndo := by
  unfold Obligations.InverseTransformationsUndo
  exact ⟨matrixProduct_invMix_mix, fun S => ⟨invShiftRows_shiftRows S, shiftRows_invShiftRows S⟩,
    fun S => ⟨invSubBytes_subBytes S, subBytes_invSubBytes S⟩, fun S => ⟨invMixColumns_mixColumns S, mixColumns_invMixColumns S⟩⟩

/-! ## The order of the rounds (R145, R174) -/

/-- The rounds of encryption are a fold over their indexes going up. -/
theorem encRounds_eq_foldl (ks : Vector Word 60) (n i : Nat) (S : Block) :
    encRounds ks n i S = (List.range' i n).foldl (encRound ks) S := by
  induction n generalizing i S with
  | zero => rfl
  | succ n ih => rw [encRounds, ih, List.range'_succ, List.foldl_cons]

/-- The rounds of decryption are a fold over their indexes going down. -/
theorem decRounds_eq_foldl (ks : Vector Word 60) (n : Nat) (S : Block) :
    decRounds ks n S = (List.range' 1 n).reverse.foldl (decRound ks) S := by
  induction n generalizing S with
  | zero => rfl
  | succ n ih =>
    rw [decRounds, ih, List.range'_1_concat, List.reverse_concat, List.foldl_cons, Nat.add_comm]

/-- Settles O48: the rounds in between are folds, up for the cipher and down for its inverse. -/
theorem ciphersRunTheirRoundsInOrder : Obligations.CiphersRunTheirRoundsInOrder := by
  unfold Obligations.CiphersRunTheirRoundsInOrder
  exact ⟨fun ks nr S => by rw [cipher, encRounds_eq_foldl], fun ks nr S => by rw [invCipher, decRounds_eq_foldl]⟩

/-! ## The sequences with the hidden round counter (R153, R182) -/

/-- From RCTR = i at most NR, enough Round steps run the rounds i to NR-1 and leave RCTR at NR. -/
theorem encLoop_eq (ks : Vector Word 60) {nr n i : Nat} (S : Block) (hi : i ≤ nr) (hn : nr ≤ i + n) :
    encLoop ks nr n ⟨S, i⟩ = ⟨encRounds ks (nr - i) i S, nr⟩ := by
  induction n generalizing i S with
  | zero =>
    obtain rfl : i = nr := Nat.le_antisymm hi hn
    rw [encLoop, Nat.sub_self, encRounds]
  | succ n ih =>
    rcases hi.eq_or_lt with rfl | hlt
    · have hstay : encAdvance ks i ⟨S, i⟩ = ⟨S, i⟩ := if_neg (Nat.lt_irrefl i)
      rw [encLoop, hstay]
      exact ih S le_rfl (Nat.le_add_right i n)
    · have hround : encAdvance ks nr ⟨S, i⟩ = ⟨encRound ks S i, i + 1⟩ := if_pos hlt
      have hleft : nr - i = nr - (i + 1) + 1 := by omega
      rw [encLoop, hround, ih _ hlt (by omega), hleft, encRounds]

/-- From RCTR = i, at least i InvRound steps run the rounds i to 1 and leave RCTR at 0. -/
theorem decLoop_eq (ks : Vector Word 60) {n i : Nat} (S : Block) (hn : i ≤ n) :
    decLoop ks n ⟨S, i⟩ = ⟨decRounds ks i S, 0⟩ := by
  induction n generalizing i S with
  | zero =>
    obtain rfl : i = 0 := Nat.le_zero.mp hn
    rfl
  | succ n ih =>
    cases i with
    | zero => exact ih S (Nat.zero_le n)
    | succ i => exact ih _ (Nat.le_of_succ_le_succ hn)

/-- Settles O49: NR steps are enough for either loop, which starts at RCTR = 1 and NR - 1. -/
theorem roundSequencesComputeTheCiphers : Obligations.RoundSequencesComputeTheCiphers := by
  unfold Obligations.RoundSequencesComputeTheCiphers
  refine ⟨fun ks nr S hnr => ?enc, fun ks nr S => ?dec⟩
  case enc =>
    rw [encSequence, encStart, encLoop_eq ks _ hnr (Nat.le_add_left nr 1)]
    exact ⟨rfl, rfl⟩
  case dec =>
    rw [decSequence, decStart, decLoop_eq ks _ (Nat.sub_le nr 1)]
    exact ⟨rfl, rfl⟩

/-! ## Decryption undoes encryption (43_round_decrypt.md section 2) -/

/-- The round after the last is run last. -/
theorem encRounds_succ (ks : Vector Word 60) (n : Nat) (S : Block) :
    encRounds ks (n + 1) 1 S = encRound ks (encRounds ks n 1 S) (n + 1) := by
  rw [encRounds_eq_foldl, encRounds_eq_foldl, List.range'_1_concat, List.foldl_concat, Nat.add_comm]

/-- A round of decryption takes the substituted and shifted state after round i to the one before it. -/
theorem decRound_encRound (ks : Vector Word 60) (S : Block) (i : Nat) :
    decRound ks (shiftRows (subBytes (encRound ks S i))) i = shiftRows (subBytes S) := by
  simp [decRound, encRound]

/-- A round of encryption takes the state that decryption has after round i, shifted and substituted back, to the one before it. -/
theorem encRound_decRound (ks : Vector Word 60) (S : Block) (i : Nat) :
    encRound ks (invSubBytes (invShiftRows (decRound ks S i))) i = invSubBytes (invShiftRows S) := by
  simp [decRound, encRound]

/-- The rounds of decryption undo those of encryption, on substituted and shifted states. -/
theorem decRounds_encRounds (ks : Vector Word 60) (n : Nat) (S : Block) :
    decRounds ks n (shiftRows (subBytes (encRounds ks n 1 S))) = shiftRows (subBytes S) := by
  induction n with
  | zero => rfl
  | succ n ih => rw [encRounds_succ, decRounds, decRound_encRound, ih]

/-- The rounds of encryption undo those of decryption, on states shifted and substituted back. -/
theorem encRounds_decRounds (ks : Vector Word 60) (n : Nat) (S : Block) :
    encRounds ks n 1 (invSubBytes (invShiftRows (decRounds ks n S))) = invSubBytes (invShiftRows S) := by
  induction n generalizing S with
  | zero => rfl
  | succ n ih => rw [encRounds_succ, decRounds, ih, encRound_decRound]

theorem invCipher_cipher (ks : Vector Word 60) (nr : Nat) (S : Block) : invCipher ks nr (cipher ks nr S) = S := by
  rw [cipher, encFinal, invCipher, addRoundKey_addRoundKey_cancel, decRounds_encRounds]
  simp [decFinal]

theorem cipher_invCipher (ks : Vector Word 60) (nr : Nat) (S : Block) : cipher ks nr (invCipher ks nr S) = S := by
  rw [invCipher, decFinal, cipher, addRoundKey_addRoundKey_cancel, encRounds_decRounds]
  simp [encFinal]

/-- Settles O50: the ciphers undo each other, and the completions of ENCBLK and DECBLK write them for the same KS and NR. -/
theorem decryptionUndoesEncryption : Obligations.DecryptionUndoesEncryption := by
  unfold Obligations.DecryptionUndoesEncryption
  refine ⟨invCipher_cipher, cipher_invCipher, fun s hd => ⟨_, exec_due hd, _, exec_due ⟨rfl, rfl⟩, ?_⟩⟩
  exact invCipher_cipher s.ks s.nr.toNat s.st

end Sys2Proof.Machine
